-- ==== Sys2Proof/Word.lean ====
section
/-! DEFINITION. The word types of the drive: link and medium bytes, and drive time (R15). -/

namespace Sys2Proof

/-- A byte of a link, of a sector buffer or of the medium. -/
abbrev Byte := BitVec 8

/-- A reading of drive time, in microseconds modulo 2^32 (R15). -/
abbrev Time := BitVec 32

end Sys2Proof
end

