-- ==== Sys2Proof/Syntax.lean ====
section
/-! DEFINITION. The commands the drive takes: one constructor of `Instr` per row of spec/opcode_table.json. -/

namespace Sys2Proof

/-- The two ports (00, Names). -/
inductive Port where
  | a
  | b
  deriving DecidableEq, Repr

/-- Bytes 1 to 7 of an eight-byte command block; byte 0 is the command code (13.2). -/
structure Block where
  tag : Byte
  b2 : Byte
  b3 : Byte
  b4 : Byte
  b5 : Byte
  b6 : Byte
  b7 : Byte
  deriving DecidableEq, Repr

/-- The header field of one recorded sector (R4): never recorded, its seven bytes, or cut off by a failed
format pass (R9; the number picks the free value). -/
inductive HeaderField where
  | blank
  | recorded (bytes : List Byte)
  | cut (seed : Nat)
  deriving DecidableEq, Repr

/-- The data field of one recorded sector (R5): never recorded, 512 bytes and their check, or torn
(the number picks the free value). -/
inductive DataField where
  | blank
  | recorded (bytes : List Byte)
  | torn (seed : Nat)
  deriving DecidableEq, Repr

/-- One gap of a recorded sector (R3): never recorded, filled with a byte, or cut off by the fall of the gate (the
number picks what was cut). No rule gives a gap's length, and the drive does not interpret it (log 31). -/
inductive GapFill where
  | blank
  | filled (fill : Byte)
  | cut (seed : Nat)
  deriving DecidableEq, Repr

/-- The gaps before, between and after the two fields of a sector (R3, R9). -/
structure Gaps where
  before : GapFill
  between : GapFill
  after : GapFill
  deriving DecidableEq, Repr

/-- What one sector of the platter holds (R3). -/
structure SectorImage where
  header : HeaderField
  data : DataField
  gaps : Gaps
  deriving DecidableEq, Repr

/-- The recorded surfaces of a cartridge, by sector number ((p * 2 + h) * 20 + k); a sector not listed holds no
recording. -/
abbrev Medium := List (Nat × SectorImage)

/-- What the channel finds in place of a sector's header field: what the medium holds under the head, nothing, or
these seven bytes (a defect, a damaged header, a carriage that is not where it is counted). -/
inductive HeaderReading where
  | asRecorded
  | missing
  | found (bytes : List Byte)
  deriving DecidableEq, Repr

/-- What the channel receives of a sector's data field: what the medium holds, or these 514 bytes. -/
inductive DataReading where
  | asRecorded
  | received (bytes : List Byte)
  deriving DecidableEq, Repr

/-- The track-0 sensor at a test (R2, R49): as the carriage stands, or this level. -/
inductive TrackZeroReading where
  | asCarriage
  | level (active : Bool)
  deriving DecidableEq, Repr

/-- The latch and write-protect sensors as STATUS reads them (R162). -/
structure SensorReading where
  latched : Bool
  writeProtect : Bool
  deriving DecidableEq, Repr

/-- What power-on reset reads once (R95, R105, R114, R141). -/
structure ResetReading where
  present : Bool
  latched : Bool
  writeProtect : Bool
  comparatorHigh : Bool
  presenceA : Bool
  presenceB : Bool
  buttonDown : Bool
  deriving DecidableEq, Repr

/-- The order in which the end of the running window, the speed report (AT_SPEED of R21 or the loss of R22) and
the start of sector 0 are taken, all brought by one index event (R85; chapter 12, Speed Lost During a Write). -/
inductive IndexOrder where
  /-- report, window end, start of sector 0 -/
  | reportFirst
  /-- window end, report, start of sector 0 -/
  | windowFirst
  /-- window end, start of sector 0, report -/
  | startFirst
  deriving DecidableEq, Repr

/-- The rows of spec/opcode_table.json. A station command carries its port and bytes 1 to 7 of its block; an event
of a link carries its port. -/
inductive Instr where
  | powerOnReset (r : ResetReading)
  | portReset (p : Port)
  | presenceLineLow (p : Port)
  | presenceLineHigh (p : Port)
  | blockTimerExpiry (p : Port)
  | dataPhaseGapTimeout (p : Port)
  | stallTimerExpiry (p : Port)
  | responseComplete (p : Port)
  | noticeRecordTaken (p : Port)
  | noticeRefill (p : Port)
  | fetchDataComplete (p : Port)
  | writeDataPhaseComplete (p : Port) (bytes : List Byte)
  | mediaRecordPhaseComplete (p : Port) (bytes : List Byte)
  | parameterPhaseComplete (p : Port) (bytes : List Byte)
  | unknownCommand (p : Port) (code : Byte) (blk : Block)
  | status (p : Port) (blk : Block) (sensors : SensorReading)
  | fetchNotice (p : Port) (blk : Block)
  | acknowledgeConditions (p : Port) (blk : Block)
  | acceptMedium (p : Port) (blk : Block)
  | reserve (p : Port) (blk : Block)
  | release (p : Port) (blk : Block)
  | lock (p : Port) (blk : Block)
  | unlock (p : Port) (blk : Block)
  | spinUp (p : Port) (blk : Block)
  | spinDown (p : Port) (blk : Block)
  | read (p : Port) (blk : Block)
  | write (p : Port) (blk : Block)
  | verify (p : Port) (blk : Block)
  | fetchData (p : Port) (blk : Block)
  | cancel (p : Port) (blk : Block)
  | eject (p : Port) (blk : Block)
  | readMediaRecord (p : Port) (blk : Block)
  | writeMediaRecord (p : Port) (blk : Block)
  | mapSpare (p : Port) (blk : Block)
  | formatTrack (p : Port) (blk : Block)
  | setParameters (p : Port) (blk : Block)
  | readParameters (p : Port) (blk : Block)
  | indexEvent (order : IndexOrder)
  | sectorStartEvent (k : Nat)
  | operationEndPoint (header : HeaderReading) (data : DataReading)
  | discardedEntryRemoval (p : Port)
  | firstIndexTimerExpiry
  | lockTimerExpiry
  | indexAbsenceTimerExpiry
  | regainTimerExpiry
  | pendingFaultBrake
  | quietTimerExpiry
  | restartOnStopped
  | idleSecondElapsed
  | standbyBrake
  | coastingEnd
  | loadTimerExpiry
  | waitingTargetStart
  | stepIntervalExpiry (sensor : TrackZeroReading)
  | creepIntervalExpiry (sensor : TrackZeroReading)
  | settleTimerExpiry
  | heldRetractStart
  | sessionResume
  | arbiterChoice
  | formatPassStart
  | presentSensorActive (cartridge : Medium)
  | presentSensorInactive
  | debounceTimerExpiry
  | latchSensorLatched (writeProtect : Bool)
  | latchTimerExpiry
  | latchPulseEnd
  | mountStepLoading
  | drainComplete
  | unmountStopRequest
  | releaseAttemptStart
  | ejectPulseEnd
  | releaseTimerExpiry
  | buttonDown
  | buttonUp
  | holdTimerExpiry
  | attentionTimerExpiry
  | reservationIdleTimerExpiry
  | supplyFallingEdge
  | supplyRisingEdge
  | recoveryTimerExpiry
  | inboundByteTaken (p : Port) (byte : Byte)
  | outboundByteTaken (p : Port)
  | dataFieldReached (header : HeaderReading)
  | checkBytesRecorded
  deriving DecidableEq, Repr

end Sys2Proof
end

