-- ==== Sys2Proof/Machine/State.lean ====
section
/-! DEFINITION. The state of the drive as plain data, block by block (00, How the Part Is Organized), and the state
right after power-on reset. -/

namespace Sys2Proof.Machine

/-- No event of the manual stops the machine, so no step raises a fault: the type has no constructor. -/
inductive Fault where
  deriving DecidableEq, Repr

/-- Why a step has no meaning. -/
inductive Refusal where
  /-- Raised by `exec` for a row that has no meaning yet (none is left). Safe: the machine stops. -/
  | notModelled (mnemonic : String)
  /-- Raised by a meaning whose operands no event of the spec can carry (`Instr.wf`, log 2). Safe: such an event
  does not arise. -/
  | illFormed
  deriving DecidableEq, Repr

/-- A running timer: its start reading and its length (R16). A stopped timer is `none`. -/
structure Timer where
  start : Time
  length : Nat
  deriving DecidableEq, Repr

/-! ### Spindle Controller (chapter 2) -/

/-- The six spindle states of R18. -/
inductive SpindleState where
  | stopped
  | starting
  | locking
  | atSpeed
  | braking
  | coasting
  deriving DecidableEq, Repr

/-- The four fault causes of R23. -/
inductive SpindleCause where
  | noIndex
  | noLock
  | indexLost
  | notRegained
  deriving DecidableEq, Repr

/-- What the Spindle Controller holds (R17 to R30). The brake output is derived (R18). -/
structure Spindle where
  state : SpindleState
  duty : Nat
  lastIndex : Option Time
  period : Option Nat
  goodCount : Nat
  badCount : Nat
  firstIndexTimer : Option Timer
  lockTimer : Option Timer
  absenceTimer : Option Timer
  regainTimer : Option Timer
  quietTimer : Option Timer
  revolutions : BitVec 16
  restartFlag : Bool
  standbyFlag : Bool
  faultPending : Bool
  standbyStop : Bool
  lastFault : Option SpindleCause
  idleCount : Nat
  idleTimer : Option Timer
  deriving DecidableEq, Repr

/-! ### Head Positioner (chapter 3) -/

/-- The eight positioner states of R36. -/
inductive PosState where
  | unloaded
  | loading
  | recalibrating
  | seeking
  | settling
  | onTrack
  | retracting
  | emergencyRetract
  deriving DecidableEq, Repr

/-- Whether the position counter is trusted (R38). -/
inductive Confidence where
  | known
  | uncertain
  deriving DecidableEq, Repr

/-- The kinds of move of R35. -/
inductive MoveKind where
  | seek
  | recalSeek
  | creep
  | retract
  | emergency
  deriving DecidableEq, Repr

/-- The direction of a step pulse (R37). -/
inductive Direction where
  | inward
  | outward
  deriving DecidableEq, Repr

/-- The active profile of R35: `distance` is the step limit for a creep, `table` the latched I[1] to I[N]. -/
structure Profile where
  kind : MoveKind
  direction : Direction
  distance : Nat
  stepIndex : Nat
  table : List Nat
  settle : Nat
  deriving DecidableEq, Repr

/-- A stage still to run (R35, R39, R40). -/
inductive Stage where
  | recalibrate
  | seek (target : Nat)
  deriving DecidableEq, Repr

/-- A request the positioner has not answered yet (R39, R40). -/
inductive PosRequest where
  | seek (target : Nat)
  | recalibrate
  deriving DecidableEq, Repr

/-- What the Head Positioner holds (R35). An empty stage plan is an absent one. -/
structure Positioner where
  state : PosState
  counter : Int
  confidence : Confidence
  profile : Option Profile
  waitingTarget : Option Nat
  heldRetract : Bool
  plan : List Stage
  request : Option PosRequest
  loadTimer : Option Timer
  stepTimer : Option Timer
  settleTimer : Option Timer
  deriving DecidableEq, Repr

/-! ### Read/Write Sequencer (R33, R81, R82, R93) -/

/-- The failure causes of R83, in the order of their codes 1 to 10 (13.1). -/
inductive Cause where
  | noHeader
  | headerCheck
  | headMismatch
  | sectorMismatch
  | dataCheck
  | timing
  | torn
  | speed
  | position
  | supply
  deriving DecidableEq, Repr

/-- The operation kinds of R81. -/
inductive OpKind where
  | read
  | verify
  | write
  | recordRead
  | recordWrite
  deriving DecidableEq, Repr

/-- The operation in flight (R81): its sector, kind, buffer (0 to 15, or 16 for the record buffer) and start time;
whether a matching header has been passed, and whether the data field has been recorded to its second check byte. -/
structure Operation where
  sector : Nat
  kind : OpKind
  buffer : Nat
  start : Time
  headerMatched : Bool
  recorded : Bool
  deriving DecidableEq, Repr

/-- A format pass in progress: the start of the sector now being recorded (R93). -/
structure FormatPass where
  sectorStart : Time
  deriving DecidableEq, Repr

/-- What the Read/Write Sequencer holds. -/
structure Sequencer where
  current : Option Nat
  op : Option Operation
  gate : Bool
  pass : Option FormatPass
  deriving DecidableEq, Repr

/-! ### Session Controller and Slot Table (chapter 5) -/

/-- STATION or DRIVE (R71). -/
inductive OwnerKind where
  | station
  | drive
  deriving DecidableEq, Repr

/-- POSITIONING or SERVING (R71). -/
inductive Phase where
  | positioning
  | serving
  deriving DecidableEq, Repr

/-- The open session (R71), with the seek it has outstanding (R75, R91) and whether a format pass may begin at the
index event just passed (R93). -/
structure Session where
  track : Nat
  head : Nat
  owner : OwnerKind
  phase : Phase
  speedSuspended : Bool
  positionSuspended : Bool
  revolutions : Nat
  mismatches : Nat
  failed : Bool
  seekOutstanding : Bool
  passDue : Bool
  deriving DecidableEq, Repr

/-- The slot states of R72. -/
inductive SlotState where
  | empty
  | deferred
  | armed
  | active
  | done
  | failed
  deriving DecidableEq, Repr

/-- Who owns a slot's work (R72). -/
inductive SlotOwner where
  | port (p : Port)
  | drive
  deriving DecidableEq, Repr

/-- One slot of the Slot Table (R72). -/
structure Slot where
  state : SlotState
  owner : Option SlotOwner
  tag : Option Byte
  retries : Nat
  cause : Option Cause
  deriving DecidableEq, Repr

/-- A slot with no work (R72): port, tag and last cause absent. Its retries left are 0, as R72 gives them for power-on
reset; for a slot that returns to EMPTY the value is the model's choice (log 28). -/
def Slot.blank : Slot := ⟨.empty, none, none, 0, none⟩

/-- The kinds of drive-owned request (R92). -/
inductive DriveKind where
  | recordRead
  | recordWrite
  | formatPass
  deriving DecidableEq, Repr

/-- Who asked for drive-owned work (R92). -/
inductive Requester where
  | custody
  | maintenance (p : Port)
  deriving DecidableEq, Repr

/-- The drive-owned request (R92). -/
structure DriveRequest where
  kind : DriveKind
  track : Nat
  head : Nat
  requester : Requester
  deriving DecidableEq, Repr

/-- How a drive-owned request ends (R92, R93). -/
inductive DriveOutcome where
  | done
  | failed (cause : Cause)
  deriving DecidableEq, Repr

/-! ### Request Queues (chapter 4) -/

/-- The operations of R56. -/
inductive XferOp where
  | read
  | write
  | verify
  deriving DecidableEq, Repr

/-- A first sector 0 to 19, or EARLIEST (R56). -/
inductive FirstSector where
  | absolute (sector : Nat)
  | earliest
  deriving DecidableEq, Repr

/-- The entry states of R56. -/
inductive EntryState where
  | receiving
  | ready
  | inSession
  | completeUnnoticed
  | noticed
  deriving DecidableEq, Repr

/-- The outcome of a transfer (R56). -/
inductive XferOutcome where
  | done
  | failed (sector : Option Nat) (cause : Cause)
  | cancelled (completed : Nat)
  deriving DecidableEq, Repr

/-- HELD or QUEUED (R56, R149). -/
inductive Placement where
  | held
  | queued
  deriving DecidableEq, Repr

/-- A request entry (R56). `cancelling`: a cancellation has begun and waits for the ACTIVE operation (R65). -/
structure Entry where
  tag : Byte
  op : XferOp
  track : Nat
  head : Nat
  first : FirstSector
  count : Nat
  retry : Nat
  buffers : List Nat
  generation : Nat
  state : EntryState
  position : Option Nat
  resolved : Option Nat
  discard : Bool
  cancelling : Bool
  outcome : Option XferOutcome
  completionTime : Option Time
  placement : Option Placement
  dataFetched : Bool
  deriving DecidableEq, Repr

/-! ### Maintenance (chapter 8) -/

/-- The three maintenance operations. -/
inductive MaintKind where
  | formatTrack
  | writeMediaRecord
  | mapSpare
  deriving DecidableEq, Repr

/-- MOUNTED or BLANK custody at acceptance (R129). -/
inductive StartingCustody where
  | mounted
  | blank
  deriving DecidableEq, Repr

/-- The outcome of a maintenance operation: DONE with its second detail of R167, or FAILED with a cause (R129). -/
inductive MaintOutcome where
  | done (detail : Nat)
  | failed (cause : Cause)
  deriving DecidableEq, Repr

/-- The maintenance record (R114, R129): RUNNING while `outcome` is absent, DONE_UNNOTICED once it is present.
`spare` is the entry that a MAP SPARE maps (R136). -/
structure Maint where
  tag : Byte
  kind : MaintKind
  outcome : Option MaintOutcome
  discard : Bool
  starting : StartingCustody
  spare : Nat
  endTime : Time
  endGeneration : Nat
  deriving DecidableEq, Repr

/-! ### Media record (R10, R11) -/

/-- The spare entry states of R11. -/
inductive SpareState where
  | free
  | mapped
  | retired
  deriving DecidableEq, Repr

/-- One entry of the spare table (R11). -/
structure SpareEntry where
  state : SpareState
  track : Nat
  deriving DecidableEq, Repr

/-- The media record's fields that can differ between valid records (R10, R12): the identifier, version, track
count, sectors per track, zero fill and check follow from these. -/
structure MediaRecord where
  serial : List Byte
  label : List Byte
  writeCount : Nat
  spares : List SpareEntry
  deriving DecidableEq, Repr

/-! ### Cartridge Custody Controller (chapter 6) -/

/-- The nine custody states. -/
inductive CustodyState where
  | empty
  | inserted
  | mounting
  | mounted
  | blank
  | ejectPending
  | unmounting
  | releasing
  | jammed
  deriving DecidableEq, Repr

/-- The mount steps of R94. -/
inductive MountStep where
  | latching
  | spinning
  | loading
  | recalibrating
  | readingRecord
  deriving DecidableEq, Repr

/-- The write-protect sample when present (R94). -/
inductive ProtectSample where
  | writable
  | isProtected
  deriving DecidableEq, Repr

/-- The eject causes of R94. -/
inductive EjectCause where
  | none
  | station
  | panel
  | forced
  | reject
  deriving DecidableEq, Repr

/-- The reasons of a rejection (R94). -/
inductive RejectReason where
  | latch
  | spindle
  | position
  deriving DecidableEq, Repr

/-- The outcome of the latest mount sequence when present (R94). -/
inductive MountResult where
  | mounted
  | blank
  | rejected (reason : RejectReason)
  deriving DecidableEq, Repr

/-- The custody record of R94; the two solenoid pulses (R97, R110); whether this unmount's stop request has been
sent (R109); whether the first pulse of a release attempt is still to be given (R110, R113). -/
structure Custody where
  state : CustodyState
  step : Option MountStep
  supplyHold : Bool
  latched : Bool
  protect : Option ProtectSample
  generation : Nat
  ejectCause : EjectCause
  deferredEject : Bool
  forcedRejection : Option RejectReason
  jamCount : Nat
  attentionTimer : Option Timer
  debounceTimer : Option Timer
  latchTimer : Option Timer
  holdTimer : Option Timer
  releaseTimer : Option Timer
  lastMount : Option MountResult
  latchPulse : Option Timer
  ejectPulse : Option Timer
  stopSent : Bool
  attemptDue : Bool
  deriving DecidableEq, Repr

/-! ### Access Control (chapter 7) -/

/-- The reservation modes of R116. -/
inductive ReserveMode where
  | exclusive
  | write
  deriving DecidableEq, Repr

/-- A held reservation (R116); the timer's start is the idle start, present with a limit above 0. -/
structure Reservation where
  holder : Port
  mode : ReserveMode
  limit : Nat
  timer : Option Timer
  deriving DecidableEq, Repr

/-! ### Notice Units (chapter 10) -/

/-- Why a port was asked for the cartridge (R146). -/
inductive AskedFor where
  | lock
  | reservation
  | both
  deriving DecidableEq, Repr

/-- The kind of a notice with its detail (R146). -/
inductive NoticeBody where
  | supplyLow
  | supplyRecovered
  | mediumMounted
  | mediumBlank
  | mediumRejected (reason : RejectReason)
  | mediumRemoved (cause : EjectCause)
  | ejectAsked (why : AskedFor)
  | reservationTaken (mode : ReserveMode)
  | reservationExpired
  | reservationFreed
  | reservationBroken
  | spindleFault (cause : SpindleCause)
  | spindleSpeedLost
  | positionRecalFailed
  | maintenanceDone (kind : MaintKind) (outcome : MaintOutcome)
  | transferDone (outcome : XferOutcome) (resolved : Option Nat)
  deriving DecidableEq, Repr

/-- A notice record (R146). -/
structure Notice where
  body : NoticeBody
  time : Time
  generation : Nat
  tag : Option Byte
  deriving DecidableEq, Repr

/-- A member of the held list (R147). -/
inductive HeldMember where
  | transfer (tag : Byte)
  | maintenance
  deriving DecidableEq, Repr

/-- The six condition flags (R151). -/
structure Conditions where
  speedLost : Bool
  spindleFault : Bool
  positionUncertain : Bool
  recalFailed : Bool
  supplyLow : Bool
  ejectJammed : Bool
  deriving DecidableEq, Repr

/-- A condition flag's name (R151). -/
inductive Flag where
  | speedLost
  | spindleFault
  | positionUncertain
  | recalFailed
  | supplyLow
  | ejectJammed
  deriving DecidableEq, Repr

/-! ### Station Link Units and Command Decoder (chapter 11) -/

/-- The outcome codes of 13.1. -/
inductive Outcome where
  | done
  | taken
  | unknown
  | badParameter
  | tagInUse
  | supplyLow
  | jammed
  | noMedium
  | mediaChanged
  | ejectPending
  | reserved
  | notHolder
  | locked
  | writeProtected
  | blankMedium
  | busy
  | queueFull
  | noBuffers
  | noSpare
  | tooLate
  | noSuchTag
  | dataTimeout
  deriving DecidableEq, Repr

/-- The link states of R155. -/
inductive LinkState where
  | idle
  | receivingBlock
  | dataIn
  | responseOut
  | dataOut
  deriving DecidableEq, Repr

/-- What the block or phase in progress belongs to: an inbound phase's command with its tag (R158), a response
that carries the head notice record (R150), a FETCH DATA with its tag (R64), or nothing more. -/
inductive LinkWork where
  | plain
  | writeData (tag : Byte)
  | mediaRecord (tag : Byte)
  | parameters
  | notice
  | fetchData (tag : Byte)
  deriving DecidableEq, Repr

/-- What a Station Link Unit holds (R155): `received` the bytes of the block or phase taken so far, `response` and
`outPhase` the bytes to send as fixed at composing (R157), `strobe` a byte whose strobe is left unacknowledged (R156). -/
structure Link where
  state : LinkState
  counter : Nat
  expected : Nat
  timer : Option Timer
  received : List Byte
  response : List Byte
  outPhase : List Byte
  work : LinkWork
  strobe : Option Byte
  deriving DecidableEq, Repr

/-- The port context of R114 with the port's link unit. -/
structure PortContext where
  linkPresent : Bool
  acknowledged : Nat
  lockHeld : Bool
  queue : List Entry
  maint : Option Maint
  notices : List Notice
  pendingSet : List Notice
  held : List HeldMember
  conditions : Conditions
  lastRefusal : Option Outcome
  link : Link
  deriving DecidableEq, Repr

/-! ### Supply Monitor (R141) and Parameter Table (R138) -/

/-- The supply states of R141. -/
inductive SupplyState where
  | high
  | low
  | recovering
  deriving DecidableEq, Repr

/-- What the Supply Monitor holds (R141). -/
structure Supply where
  state : SupplyState
  recoveryTimer : Option Timer
  deriving DecidableEq, Repr

/-- The parameter table (R138, R45). `intervals` is I[1] to I[16]. -/
structure Params where
  entries : Nat
  intervals : List Nat
  minInterval : Nat
  settle : Nat
  lead : Nat
  defaultRetry : Nat
  standbyLimit : Nat
  deriving DecidableEq, Repr

/-- The sensor and panel inputs whose level the rules read (R94, R105, R141). -/
structure Pins where
  present : Bool
  latch : Bool
  writeProtect : Bool
  comparatorHigh : Bool
  button : Bool
  deriving DecidableEq, Repr

/-- The state of the drive. `ram` is the sixteen sector buffers and the record buffer; `pool` the holder of each
sector buffer, none for FREE (R59). `medium` and `carriage` are the mechanism that the rules describe (log 8),
`freeCount` the counter at which the free values are read (log 11), `pending` the queue of waiting commands. -/
structure State where
  time : Time
  pins : Pins
  spindle : Spindle
  pos : Positioner
  seq : Sequencer
  session : Option Session
  slots : List Slot
  turn : Port
  driveReq : Option DriveRequest
  ram : List Host.Cell
  pool : List (Option Port)
  portA : PortContext
  portB : PortContext
  custody : Custody
  copy : Option MediaRecord
  reservation : Option Reservation
  supply : Supply
  params : Params
  faultOutstanding : Bool
  recalOutstanding : Bool
  medium : Medium
  carriage : Nat
  freeCount : Nat
  pending : List Instr
  deriving DecidableEq, Repr

/-! ### After power-on reset -/

/-- R34. -/
def Spindle.reset : Spindle where
  state := .stopped
  duty := 0
  lastIndex := none
  period := none
  goodCount := 0
  badCount := 0
  firstIndexTimer := none
  lockTimer := none
  absenceTimer := none
  regainTimer := none
  quietTimer := none
  revolutions := 0
  restartFlag := false
  standbyFlag := false
  faultPending := false
  standbyStop := false
  lastFault := none
  idleCount := 0
  idleTimer := none

/-- R35. -/
def Positioner.reset : Positioner where
  state := .unloaded
  counter := 640
  confidence := .known
  profile := none
  waitingTarget := none
  heldRetract := false
  plan := []
  request := none
  loadTimer := none
  stepTimer := none
  settleTimer := none

/-- R34, R81. -/
def Sequencer.reset : Sequencer := ⟨none, none, false, none⟩

/-- R155: IDLE, counter 0, timer stopped. -/
def Link.reset : Link := ⟨.idle, 0, 0, none, [], [], [], .plain, none⟩

/-- R151: every flag clear. -/
def Conditions.clear : Conditions := ⟨false, false, false, false, false, false⟩

/-- R114, with the presence line as it reads. -/
def PortContext.reset (present : Bool) : PortContext where
  linkPresent := present
  acknowledged := 0
  lockHeld := false
  queue := []
  maint := none
  notices := []
  pendingSet := []
  held := []
  conditions := .clear
  lastRefusal := none
  link := .reset

/-- R94, in EMPTY. -/
def Custody.reset : Custody where
  state := .empty
  step := none
  supplyHold := false
  latched := false
  protect := none
  generation := 0
  ejectCause := .none
  deferredEject := false
  forcedRejection := none
  jamCount := 0
  attentionTimer := none
  debounceTimer := none
  latchTimer := none
  holdTimer := none
  releaseTimer := none
  lastMount := none
  latchPulse := none
  ejectPulse := none
  stopSent := false
  attemptDue := false

/-- The defaults of R45 and R138. -/
def Params.default : Params where
  entries := 8
  intervals := [5000, 3500, 2700, 2200, 1900, 1700, 1550, 1450, 1450, 1450, 1450, 1450, 1450, 1450, 1450, 1450]
  minInterval := 1400
  settle := 15000
  lead := 2
  defaultRetry := 3
  standbyLimit := 30

/-- Right after power-on reset (R34, R35, R81, R71, R72, R74, R92, R57, R59, R94, R114, R116, R138, R141, R147, R151,
R155). What the reset reads of the outside is taken as: no cartridge, both stations connected, comparator high, button
up (log 6). -/
def State.reset : State where
  time := 0
  pins := ⟨false, false, false, true, false⟩
  spindle := .reset
  pos := .reset
  seq := .reset
  session := none
  slots := List.replicate 20 Slot.blank
  turn := .b
  driveReq := none
  ram := []
  pool := List.replicate 16 none
  portA := .reset true
  portB := .reset true
  custody := .reset
  copy := none
  reservation := none
  supply := ⟨.high, none⟩
  params := .default
  faultOutstanding := false
  recalOutstanding := false
  medium := []
  carriage := 640
  freeCount := 0
  pending := []

end Sys2Proof.Machine
end

