-- ==== Sys2Proof/Machine/Ops.lean ====
section
/-! DEFINITION. The operations every block shares: elapsed time and timers (R16), sparse memory, the sector buffers
and the recorded surfaces, and access to the port contexts, entries and slots. -/

namespace Sys2Proof

/-- The other port (00, Names). -/
def Port.other : Port → Port
  | .a => .b
  | .b => .a

/-- Both ports, A first. -/
def Port.both : List Port := [.a, .b]

end Sys2Proof

namespace Sys2Proof.Machine

/-! ### Time (R15, R16) -/

/-- The elapsed time from reading `a` to reading `b`, modulo 2^32 (R16). -/
def elapsed (a b : Time) : Nat := (b - a).toNat

/-- A timer of the given length started now (R16). -/
def State.startTimer (s : State) (length : Nat) : Option Timer := some ⟨s.time, length⟩

/-- The timer runs and its elapsed time has reached its length (R16). -/
def expired (t : Option Timer) (now : Time) : Bool :=
  match t with
  | none => false
  | some t => decide (t.length ≤ elapsed t.start now)

/-- clamp(x, lo, hi) of 00, Arithmetic. -/
def clamp (x lo hi : Nat) : Nat := if x < lo then lo else if hi < x then hi else x

/-- clamp on signed numbers. -/
def clampInt (x lo hi : Int) : Int := if x < lo then lo else if hi < x then hi else x

/-! ### Sparse maps in canonical form -/

/-- What a sparse map reads at a key: its entry, or `d` where none is listed. -/
def sparseGet {α : Type} (d : α) : List (Nat × α) → Nat → α
  | [], _ => d
  | (k, v) :: rest, a => if a = k then v else sparseGet d rest a

/-- Write `v` at key `a`; writing `d` removes the entry, so the canonical form is kept. -/
def sparseSet {α : Type} [DecidableEq α] (d : α) : List (Nat × α) → Nat → α → List (Nat × α)
  | [], a, v => if v = d then [] else [(a, v)]
  | (k, w) :: rest, a, v =>
    if a < k then (if v = d then (k, w) :: rest else (a, v) :: (k, w) :: rest)
    else if a = k then (if v = d then rest else (a, v) :: rest)
    else (k, w) :: sparseSet d rest a v

/-- Every key is above `low`, keys rise strictly, and no entry equals `d`. -/
def sparseWfAbove {α : Type} [DecidableEq α] (d : α) : Option Nat → List (Nat × α) → Bool
  | _, [] => true
  | low, (k, v) :: rest =>
    (match low with | none => true | some l => decide (l < k)) && decide (v ≠ d) && sparseWfAbove d (some k) rest

/-- The canonical form: keys strictly rising, no entry equal to what an unlisted key reads as. -/
def sparseWf {α : Type} [DecidableEq α] (d : α) (m : List (Nat × α)) : Bool := sparseWfAbove d none m

/-! ### The buffer RAM (R59, R81): sixteen sector buffers at 512 * b, the record buffer at 512 * 16 -/

/-- What a byte of RAM that nothing has written reads as (R81 for the record buffer; log 7). -/
def ramDefault : Byte := 0

/-- The canonical form of the RAM. -/
def Memory.wf (m : List Host.Cell) : Bool := sparseWf ramDefault m

/-- The index of the record buffer in RAM. -/
def recordBuffer : Nat := 16

/-- One byte of RAM. -/
def State.ramByte (s : State) (a : Nat) : Byte := sparseGet ramDefault s.ram a

/-- Store one byte in RAM. -/
def State.setRamByte (s : State) (a : Nat) (v : Byte) : State := { s with ram := sparseSet ramDefault s.ram a v }

/-- Store bytes in RAM from address `a` on. -/
def storeBytes (m : List Host.Cell) : Nat → List Byte → List Host.Cell
  | _, [] => m
  | a, v :: rest => storeBytes (sparseSet ramDefault m a v) (a + 1) rest

/-- Store bytes in buffer `b` from offset `off` on. -/
def State.storeBuffer (s : State) (b off : Nat) (bytes : List Byte) : State :=
  { s with ram := storeBytes s.ram (512 * b + off) bytes }

/-- The 512 bytes of buffer `b`, first to last. -/
def State.bufferBytes (s : State) (b : Nat) : List Byte :=
  (List.range 512).map fun i => s.ramByte (512 * b + i)

/-! ### Port contexts (R114) -/

/-- The context of a port. -/
def State.ctx (s : State) : Port → PortContext
  | .a => s.portA
  | .b => s.portB

/-- Replace the context of a port. -/
def State.setCtx (s : State) (p : Port) (c : PortContext) : State :=
  match p with
  | .a => { s with portA := c }
  | .b => { s with portB := c }

/-- Change the context of a port. -/
def State.updCtx (s : State) (p : Port) (f : PortContext → PortContext) : State := s.setCtx p (f (s.ctx p))

/-- Change both contexts in the same way. -/
def State.updBoth (s : State) (f : PortContext → PortContext) : State :=
  { s with portA := f s.portA, portB := f s.portB }

/-- Change the link unit of a port. -/
def State.updLink (s : State) (p : Port) (f : Link → Link) : State :=
  s.updCtx p fun c => { c with link := f c.link }

/-! ### Request entries (R56, R57) -/

/-- The live entry of port `p` with a tag (no two share one, R57). -/
def State.entry? (s : State) (p : Port) (tag : Byte) : Option Entry :=
  (s.ctx p).queue.find? fun e => e.tag == tag

/-- Change the entry of port `p` with a tag. -/
def State.updEntry (s : State) (p : Port) (tag : Byte) (f : Entry → Entry) : State :=
  s.updCtx p fun c => { c with queue := c.queue.map fun e => if e.tag == tag then f e else e }

/-- Take the entry of port `p` with a tag out of its queue (R57). -/
def State.dropEntry (s : State) (p : Port) (tag : Byte) : State :=
  s.updCtx p fun c => { c with queue := c.queue.filter fun e => !(e.tag == tag) }

/-- The tags of port `p`'s entries in a state, in queue order. -/
def State.tagsIn (s : State) (p : Port) (st : EntryState) : List Byte :=
  ((s.ctx p).queue.filter fun e => e.state == st).map fun e => e.tag

/-- Port `p` has an entry in state `st`. -/
def State.hasEntryIn (s : State) (p : Port) (st : EntryState) : Bool :=
  (s.ctx p).queue.any fun e => e.state == st

/-- Either port has an entry in state `st`. -/
def State.anyEntryIn (s : State) (st : EntryState) : Bool := s.hasEntryIn .a st || s.hasEntryIn .b st

/-! ### Buffers (R59) -/

/-- The number of FREE buffers. -/
def State.freeBuffers (s : State) : Nat := (s.pool.filter fun h => h == none).length

/-- The number of buffers port `p` holds. -/
def State.heldBuffers (s : State) (p : Port) : Nat := (s.pool.filter fun h => h == some p).length

/-- The first `n` FREE buffers; which are taken makes no difference that a station can see (R59). -/
def State.takeFree (s : State) (n : Nat) : List Nat :=
  ((List.range 16).filter fun i => s.pool.getD i (some .a) == none).take n

/-- Give the listed buffers a holder, or return them to FREE. -/
def State.assignBuffers (s : State) (ids : List Nat) (holder : Option Port) : State :=
  { s with pool := ids.foldl (fun pool i => pool.set i holder) s.pool }

/-! ### Slots (R72) -/

/-- Slot `k`. -/
def State.slot (s : State) (k : Nat) : Slot := s.slots.getD k Slot.blank

/-- Replace slot `k`. -/
def State.setSlot (s : State) (k : Nat) (x : Slot) : State := { s with slots := s.slots.set k x }

/-- The slot is held by the entry of port `p` with a tag. -/
def Slot.heldBy (x : Slot) (p : Port) (tag : Byte) : Bool := x.owner == some (.port p) && x.tag == some tag

/-- The slot is in a non-final state other than EMPTY (R72). -/
def Slot.nonFinal (x : Slot) : Bool := x.state == .deferred || x.state == .armed || x.state == .active

/-- The slot is DONE or FAILED (R72). -/
def Slot.final (x : Slot) : Bool := x.state == .done || x.state == .failed

/-! ### The recorded surfaces (R1 to R5) -/

/-- A sector that holds no recording. -/
def SectorImage.unrecorded : SectorImage := ⟨.blank, .blank, ⟨.blank, .blank, .blank⟩⟩

/-- The number of a sector among those of the cartridge (R2, R3). -/
def sectorKey (track head sector : Nat) : Nat := (track * 2 + head) * 20 + sector

/-- What the medium holds under the carriage, at a head and sector. -/
def State.image (s : State) (head sector : Nat) : SectorImage :=
  sparseGet SectorImage.unrecorded s.medium (sectorKey s.carriage head sector)

/-- Record a sector under the carriage. -/
def State.setImage (s : State) (head sector : Nat) (i : SectorImage) : State :=
  { s with medium := sparseSet SectorImage.unrecorded s.medium (sectorKey s.carriage head sector) i }

/-- Take the next free value: its number is the counter, which advances. -/
def State.countFree (s : State) : State := { s with freeCount := s.freeCount + 1 }

end Sys2Proof.Machine
end

