-- ==== Sys2Proof/Machine/Operands.lean ====
section
/-! DEFINITION. Fields and layouts: the command block, the check code, the recorded formats, the notice record, the
response, the parameter block and the status record (R4 to R6, R10 to R12, R166, R167, chapter 13). -/

namespace Sys2Proof

/-! ### Command block fields (13.2) -/

/-- Bytes 2-3: the logical track of a transfer or MAP SPARE, the physical track of FORMAT TRACK. -/
def Block.track (b : Block) : Nat := b.b2.toNat * 256 + b.b3.toNat

/-- Byte 4: the head. -/
def Block.head (b : Block) : Nat := b.b4.toNat

/-- Byte 6: the count. -/
def Block.count (b : Block) : Nat := b.b6.toNat

/-- Byte 2: the mode of RESERVE and EJECT, and the mask of ACKNOWLEDGE CONDITIONS. -/
def Block.mode (b : Block) : Nat := b.b2.toNat

/-- Byte 3: the idle limit of RESERVE, in seconds. -/
def Block.limit (b : Block) : Nat := b.b3.toNat

end Sys2Proof

namespace Sys2Proof.Machine

/-- Byte 5: a first sector 0-19, or FFh for EARLIEST; none when out of range. -/
def firstSector (b : Block) : Option FirstSector :=
  if b.b5 = 0xFF then some .earliest
  else if b.b5.toNat ≤ 19 then some (.absolute b.b5.toNat) else none

/-- Byte 7: a retry limit 0-7, or FFh for the default held now; none when out of range (R56). -/
def retryLimit (b : Block) (default : Nat) : Option Nat :=
  if b.b7 = 0xFF then some default
  else if b.b7.toNat ≤ 7 then some b.b7.toNat else none

/-- Byte 2 of RESERVE: 01h EXCLUSIVE, 02h WRITE; none when out of range. -/
def reserveMode (b : Block) : Option ReserveMode :=
  if b.mode = 1 then some .exclusive else if b.mode = 2 then some .write else none

/-- The code of a reservation mode (13.2). -/
def ReserveMode.code : ReserveMode → Nat
  | .exclusive => 1
  | .write => 2

/-! ### Bytes -/

/-- A number as one byte. -/
def byte (n : Nat) : Byte := BitVec.ofNat 8 n

/-- A number as two bytes, most significant first (R166). -/
def word16 (n : Nat) : List Byte := [byte (n / 256), byte n]

/-- The byte at a place of a record. -/
def byteAt (l : List Byte) (i : Nat) : Nat := (l.getD i 0).toNat

/-- The two-byte number at a place of a record (R166). -/
def wordAt (l : List Byte) (i : Nat) : Nat := byteAt l i * 256 + byteAt l (i + 1)

/-- The bit of a truth value. -/
def bit (b : Bool) : Nat := if b then 1 else 0

/-! ### The check code (R6) -/

/-- One bit of the check: compare, shift left, combine with 1021h if the bits differed. -/
def crcBit (reg : BitVec 16) (b : Bool) : BitVec 16 :=
  if reg.msb == b then reg <<< 1 else (reg <<< 1) ^^^ 0x1021#16

/-- One byte of the check, from its most significant bit to its least. -/
def crcByte (reg : BitVec 16) (x : Byte) : BitVec 16 :=
  [7, 6, 5, 4, 3, 2, 1, 0].foldl (fun r i => crcBit r (x.getLsbD i)) reg

/-- The check over bytes in recorded order, from FFFFh, with no final inversion. -/
def crc (l : List Byte) : BitVec 16 := l.foldl crcByte 0xFFFF#16

/-- The check as its two recorded bytes. -/
def crcBytes (l : List Byte) : List Byte := word16 (crc l).toNat

/-- A field is good when the check over its covered bytes equals the two recorded check bytes (R6). -/
def checkGood (covered check : List Byte) : Bool := crcBytes covered == check

/-! ### Sector header and data field (R4, R5) -/

/-- The seven bytes of a header as a format pass records it (R4, R9). -/
def headerBytes (track head sector : Nat) : List Byte :=
  let content := word16 track ++ [byte head, byte sector, 0x01]
  content ++ crcBytes content

/-- The 514 bytes of a data field (R5). -/
def dataFieldBytes (data : List Byte) : List Byte := data ++ crcBytes data

/-- The judgement of a header (R7): a matching header, a track mismatch, or a failure with its cause. -/
inductive HeaderJudgement where
  | matching
  | trackMismatch
  | failed (cause : Cause)
  deriving DecidableEq, Repr

/-- The six tests of R7 in order, against position p, head h and sector k. -/
def judgeHeader (p h k : Nat) : Option (List Byte) → HeaderJudgement
  | none => .failed .noHeader
  | some b =>
    if !checkGood (b.take 5) (b.drop 5) then .failed .headerCheck
    else if byteAt b 4 % 2 = 0 then .failed .noHeader
    else if wordAt b 0 ≠ p then .trackMismatch
    else if byteAt b 2 ≠ h then .failed .headMismatch
    else if byteAt b 3 ≠ k then .failed .sectorMismatch
    else .matching

/-! ### The media record (R10 to R12) -/

/-- The recorded value of a spare entry's state (R11). -/
def SpareState.code : SpareState → Nat
  | .free => 0
  | .mapped => 1
  | .retired => 2

/-- A spare entry as recorded; the drive writes 0000h as the track of a FREE entry (R11). -/
def SpareEntry.bytes (e : SpareEntry) : List Byte :=
  byte e.state.code :: word16 (if e.state = .free then 0 else e.track)

/-- Bytes 0 to 509 of a record (13.6). -/
def MediaRecord.body (r : MediaRecord) : List Byte :=
  [0x5A, 0x3C, 0x01] ++ r.serial ++ r.label ++ word16 600 ++ [byte 20] ++ word16 r.writeCount ++
    r.spares.flatMap SpareEntry.bytes ++ List.replicate 434 0

/-- The 512 bytes of a record, its check computed last (R10). -/
def MediaRecord.bytes (r : MediaRecord) : List Byte := r.body ++ crcBytes r.body

/-- The spare entry s of recorded bytes (13.6). -/
def spareAt (b : List Byte) (s : Nat) : SpareEntry :=
  let code := byteAt b (28 + 3 * s)
  ⟨if code = 0 then .free else if code = 1 then .mapped else .retired, wordAt b (29 + 3 * s)⟩

/-- The record that 512 bytes hold (13.6). -/
def decodeRecord (b : List Byte) : MediaRecord where
  serial := (b.drop 3).take 4
  label := (b.drop 7).take 16
  writeCount := wordAt b 26
  spares := (List.range 16).map (spareAt b)

/-- Test 8 of R12: no logical track stands in two MAPPED entries. -/
def mappedOnce : List SpareEntry → Bool
  | [] => true
  | e :: rest => (!(e.state == .mapped && rest.any fun f => f.state == .mapped && f.track == e.track)) && mappedOnce rest

/-- The eight tests of R12 on the 512 bytes read. -/
def validRecord (b : List Byte) : Bool :=
  checkGood (b.take 510) ((b.drop 510).take 2) &&
  wordAt b 0 == 0x5A3C &&
  byteAt b 2 == 1 &&
  wordAt b 23 == 600 &&
  byteAt b 25 == 20 &&
  ((List.range 16).all fun s => byteAt b (28 + 3 * s) ≤ 2) &&
  ((decodeRecord b).spares.all fun e => e.state == .free || decide (e.track < 600)) &&
  mappedOnce (decodeRecord b).spares

/-- Translation (R14): the spare position of the entry MAPPED to the track, else its home position. -/
def translate (copy : Option MediaRecord) (track : Nat) : Nat :=
  match copy with
  | none => track + 1
  | some r =>
    match r.spares.findIdx? fun e => e.state == .mapped && e.track == track with
    | some s => 601 + s
    | none => track + 1

/-- The record write count after one more write (R10). -/
def nextCount (n : Nat) : Nat := (n + 1) % 65536

/-- A fresh record (R134). -/
def freshRecord (serial label : List Byte) : MediaRecord :=
  ⟨serial, label, 1, List.replicate 16 ⟨.free, 0⟩⟩

/-- The lowest-numbered FREE entry (R136). -/
def lowestFree (r : MediaRecord) : Option Nat := r.spares.findIdx? fun e => e.state == .free

/-- The record that maps entry `s` to a track and retires the entry mapped to it before (R136). -/
def mapSpareRecord (r : MediaRecord) (s track : Nat) : MediaRecord :=
  { r with
    writeCount := nextCount r.writeCount
    spares := (r.spares.map fun e =>
      if e.state == .mapped && e.track == track then { e with state := .retired } else e).set s ⟨.mapped, track⟩ }

/-! ### Codes (13.1, R167) -/

/-- The code of an outcome (13.1). -/
def Outcome.code : Outcome → Nat
  | .done => 0x00
  | .taken => 0x01
  | .unknown => 0x10
  | .badParameter => 0x11
  | .tagInUse => 0x12
  | .supplyLow => 0x13
  | .jammed => 0x14
  | .noMedium => 0x15
  | .mediaChanged => 0x16
  | .ejectPending => 0x17
  | .reserved => 0x18
  | .notHolder => 0x19
  | .locked => 0x1A
  | .writeProtected => 0x1B
  | .blankMedium => 0x1C
  | .busy => 0x1D
  | .queueFull => 0x1E
  | .noBuffers => 0x1F
  | .noSpare => 0x20
  | .tooLate => 0x21
  | .noSuchTag => 0x22
  | .dataTimeout => 0x23

/-- The code of a failure cause (13.1). -/
def Cause.code : Cause → Nat
  | .noHeader => 1
  | .headerCheck => 2
  | .headMismatch => 3
  | .sectorMismatch => 4
  | .dataCheck => 5
  | .timing => 6
  | .torn => 7
  | .speed => 8
  | .position => 9
  | .supply => 10

/-- The cause with a code, taken modulo 10 (for a free value, log 10). -/
def causeOf (n : Nat) : Cause :=
  [Cause.supply, .noHeader, .headerCheck, .headMismatch, .sectorMismatch, .dataCheck, .timing, .torn, .speed,
    .position].getD (n % 10) .supply

/-- The code of a spindle fault cause (R167). -/
def SpindleCause.code : SpindleCause → Nat
  | .noIndex => 1
  | .noLock => 2
  | .indexLost => 3
  | .notRegained => 4

/-- The code of a rejection's reason (R167). -/
def RejectReason.code : RejectReason → Nat
  | .latch => 1
  | .spindle => 2
  | .position => 3

/-- The code of the eject cause of a removal (R167). -/
def EjectCause.code : EjectCause → Nat
  | .station => 1
  | .panel => 2
  | .forced => 3
  | _ => 0

/-- The six flags at bits 0 to 5 (13.1). -/
def Conditions.code (c : Conditions) : Nat :=
  bit c.speedLost + 2 * bit c.spindleFault + 4 * bit c.positionUncertain + 8 * bit c.recalFailed +
    16 * bit c.supplyLow + 32 * bit c.ejectJammed

/-! ### The notice record (13.3, R167) -/

/-- The priority of a kind, 1 highest (R146). -/
def NoticeBody.priority : NoticeBody → Nat
  | .supplyLow => 1
  | .supplyRecovered => 1
  | .mediumMounted => 2
  | .mediumBlank => 2
  | .mediumRejected _ => 2
  | .mediumRemoved _ => 2
  | .ejectAsked _ => 3
  | .reservationTaken _ => 4
  | .reservationExpired => 4
  | .reservationFreed => 4
  | .reservationBroken => 4
  | .spindleFault _ => 5
  | .spindleSpeedLost => 5
  | .positionRecalFailed => 6
  | .maintenanceDone _ _ => 7
  | .transferDone _ _ => 8

/-- The record code of bits 0 to 3 of byte 0 (13.3). -/
def NoticeBody.recordCode : NoticeBody → Nat
  | .maintenanceDone .formatTrack _ => 7
  | .maintenanceDone .writeMediaRecord _ => 9
  | .maintenanceDone .mapSpare _ => 0x0A
  | b => b.priority

/-- The first detail (R167). -/
def NoticeBody.firstDetail : NoticeBody → Nat
  | .supplyLow => 0
  | .supplyRecovered => 1
  | .mediumMounted => 0
  | .mediumBlank => 1
  | .mediumRejected _ => 2
  | .mediumRemoved _ => 3
  | .ejectAsked .lock => 1
  | .ejectAsked .reservation => 2
  | .ejectAsked .both => 3
  | .reservationTaken _ => 0
  | .reservationExpired => 1
  | .reservationFreed => 2
  | .reservationBroken => 3
  | .spindleFault _ => 0
  | .spindleSpeedLost => 1
  | .positionRecalFailed => 0
  | .maintenanceDone _ (.done _) => 0
  | .maintenanceDone _ (.failed c) => c.code
  | .transferDone .done _ => 0
  | .transferDone (.failed _ c) _ => c.code
  | .transferDone (.cancelled n) _ => if n ≤ 7 then 0x0B else 0x0C

/-- Bits 5 to 7 of a TRANSFER_DONE's second detail (R167): the position of the failing sector in request order, or
the sectors completed of a CANCELLED with code 0Bh. -/
def transferUpper : XferOutcome → Option Nat → Nat
  | .done, _ => 0
  | .failed (some sector) _, some r => (sector + 20 - r) % 20
  | .failed _ _, _ => 0
  | .cancelled n, _ => if n ≤ 7 then n else 0

/-- The second detail (R167). -/
def NoticeBody.secondDetail : NoticeBody → Nat
  | .mediumRejected r => r.code
  | .mediumRemoved c => c.code
  | .reservationTaken m => m.code
  | .spindleFault c => c.code
  | .maintenanceDone _ (.done d) => d % 256
  | .transferDone o resolved => resolved.getD 0x1F + 32 * transferUpper o resolved
  | _ => 0

/-- The eight bytes of a notice record (13.3). -/
def Notice.bytes (n : Notice) : List Byte :=
  [byte (n.body.recordCode + 16 * n.body.firstDetail),
    byte (n.time.toNat / 16777216), byte (n.time.toNat / 65536), byte (n.time.toNat / 256), byte n.time.toNat,
    byte n.generation, n.tag.getD 0, byte n.body.secondDetail]

/-- A record marked none (13.3). -/
def noticeNone : List Byte := List.replicate 8 0

/-! ### Responses (R160, 13.2) -/

/-- The eight bytes of a response: code, tag, outcome, detail padded to five bytes. -/
def responseBytes (code tag : Byte) (o : Outcome) (detail : List Byte) : List Byte :=
  [code, tag, byte o.code] ++ detail ++ List.replicate (5 - detail.length) 0

/-! ### The parameter block (13.5) -/

/-- The 40 bytes of the parameter table. -/
def Params.bytes (q : Params) : List Byte :=
  byte q.entries :: q.intervals.flatMap word16 ++ word16 q.minInterval ++ word16 q.settle ++
    [byte q.lead, byte q.defaultRetry, byte q.standbyLimit]

/-- Conditioning of the intervals after the first: each is clamped between the minimum interval and the one before
it (R45). -/
def conditionFrom (lo : Nat) : Nat → List Nat → List Nat
  | _, [] => []
  | hi, x :: rest => clamp x lo hi :: conditionFrom lo (clamp x lo hi) rest

/-- The table that 40 received bytes give, clamped and conditioned (R45, R138). -/
def paramsOf (b : List Byte) : Params :=
  let lo := clamp (wordAt b 33) 500 5000
  { entries := clamp (byteAt b 0) 1 16
    intervals := conditionFrom lo 20000 ((List.range 16).map fun i => wordAt b (1 + 2 * i))
    minInterval := lo
    settle := clamp (wordAt b 35) 5000 50000
    lead := clamp (byteAt b 37) 1 4
    defaultRetry := clamp (byteAt b 38) 0 7
    standbyLimit := clamp (byteAt b 39) 0 255 }

/-! ### The status record (R162, 13.4) -/

/-- The code of a supply state. -/
def SupplyState.code : SupplyState → Nat
  | .high => 0
  | .low => 1
  | .recovering => 2

/-- The code of a custody state. -/
def CustodyState.code : CustodyState → Nat
  | .empty => 0
  | .inserted => 1
  | .mounting => 2
  | .mounted => 3
  | .blank => 4
  | .ejectPending => 5
  | .unmounting => 6
  | .releasing => 7
  | .jammed => 8

/-- The code of a mount step, 0 while absent. -/
def stepCode : Option MountStep → Nat
  | none => 0
  | some .latching => 1
  | some .spinning => 2
  | some .loading => 3
  | some .recalibrating => 4
  | some .readingRecord => 5

/-- The code of the write-protect sample, 0 while absent. -/
def protectCode : Option ProtectSample → Nat
  | none => 0
  | some .writable => 1
  | some .isProtected => 2

/-- The code of the last mount result, 0 while absent. -/
def mountCode : Option MountResult → Nat
  | none => 0
  | some .mounted => 1
  | some .blank => 2
  | some (.rejected r) => 2 + r.code

/-- The code of a spindle state. -/
def SpindleState.code : SpindleState → Nat
  | .stopped => 0
  | .starting => 1
  | .locking => 2
  | .atSpeed => 3
  | .braking => 4
  | .coasting => 5

/-- The code of a positioner state. -/
def PosState.code : PosState → Nat
  | .unloaded => 0
  | .loading => 1
  | .recalibrating => 2
  | .seeking => 3
  | .settling => 4
  | .onTrack => 5
  | .retracting => 6
  | .emergencyRetract => 7

/-- A signed number as sixteen bits in two's complement (R166). -/
def signed16 (x : Int) : List Byte := word16 (BitVec.ofInt 16 x).toNat

/-- The maintenance record's code: absent, RUNNING or DONE_UNNOTICED. -/
def maintCode : Option Maint → Nat
  | none => 0
  | some m => if m.outcome.isNone then 1 else 2

/-- The session is suspended while a reason stands (R71). -/
def Session.suspended (x : Session) : Bool := x.speedSuspended || x.positionSuspended

/-- The 24 bytes of the status record, for the issuer `p` (13.4). It has no place for the port's link present, which
R114 names, nor for drive time, which R15 names (log 34); of the readings in byte 0, 1 is a comparator that is high, a
cartridge that is present, a latch that is latched and a tab that protects (log 35). -/
def State.statusRecord (s : State) (p : Port) : List Byte :=
  let c := s.ctx p
  let u := s.custody
  let period := match s.spindle.period with | none => 0 | some n => min n 65535
  [byte (s.supply.state.code + 4 * bit s.pins.comparatorHigh + 8 * bit s.pins.present + 16 * bit s.pins.latch +
      32 * bit s.pins.writeProtect + 64 * bit u.latched + 128 * bit s.seq.gate),
    byte (u.state.code + 16 * stepCode u.step),
    byte u.generation,
    byte (protectCode u.protect + 4 * u.jamCount + 16 * mountCode u.lastMount + 128 * bit s.spindle.standbyFlag),
    byte (s.spindle.state.code + 8 * ((s.spindle.lastFault.map SpindleCause.code).getD 0)),
    byte s.spindle.duty] ++ word16 period ++ word16 s.spindle.revolutions.toNat ++
  [byte (s.pos.state.code + 8 * bit (s.pos.confidence == .uncertain) +
      (match s.session with
        | none => 0
        | some x => 16 + 32 * x.head + 64 * bit (x.owner == .drive) + 128 * bit x.suspended))] ++
  signed16 s.pos.counter ++
  word16 (match s.session with | none => 0 | some x => x.track) ++
  [byte (s.freeBuffers + 32 * bit c.lockHeld + 64 * bit (s.ctx p.other).lockHeld),
    byte c.acknowledged,
    byte (c.queue.length + 16 * s.heldBuffers p),
    byte (maintCode c.maint +
      (match s.reservation with
        | none => 0
        | some r => (if r.holder = p then 4 else 8) + 16 * bit (r.mode == .write))),
    byte (match s.reservation with | none => 0 | some r => r.limit),
    byte ((c.lastRefusal.map Outcome.code).getD 0),
    byte (c.notices.length + 16 * c.held.length),
    byte ((c.pendingSet.map fun n => 2 ^ (n.body.priority - 1)).sum),
    byte c.conditions.code]

end Sys2Proof.Machine
end

