-- ==== Sys2Proof/Machine/Flags.lean ====
section
/-! DEFINITION. The condition flags (R151, R152), the lamps (R153, R154), and the conditions that several blocks read. -/

namespace Sys2Proof.Machine

/-- One flag of the six. -/
def Conditions.get (c : Conditions) : Flag → Bool
  | .speedLost => c.speedLost
  | .spindleFault => c.spindleFault
  | .positionUncertain => c.positionUncertain
  | .recalFailed => c.recalFailed
  | .supplyLow => c.supplyLow
  | .ejectJammed => c.ejectJammed

/-- Set one flag. -/
def Conditions.raise (c : Conditions) : Flag → Conditions
  | .speedLost => { c with speedLost := true }
  | .spindleFault => { c with spindleFault := true }
  | .positionUncertain => { c with positionUncertain := true }
  | .recalFailed => { c with recalFailed := true }
  | .supplyLow => { c with supplyLow := true }
  | .ejectJammed => { c with ejectJammed := true }

/-- The supply is high (R141). -/
def State.supplyHigh (s : State) : Bool := s.supply.state == .high

/-- The flags whose cause persists now (the persistence table of R151). -/
def State.persisting (s : State) : Conditions where
  speedLost := false
  spindleFault := s.faultOutstanding
  positionUncertain := s.pos.confidence == .uncertain
  recalFailed := s.recalOutstanding
  supplyLow := !s.supplyHigh
  ejectJammed := s.custody.state == .jammed

/-- Set the flags that persist, keep the others (R115, R127). -/
def Conditions.join (c d : Conditions) : Conditions :=
  ⟨c.speedLost || d.speedLost, c.spindleFault || d.spindleFault, c.positionUncertain || d.positionUncertain,
    c.recalFailed || d.recalFailed, c.supplyLow || d.supplyLow, c.ejectJammed || d.ejectJammed⟩

/-- An acknowledgement: the flags at the mask's bits are cleared, and those whose cause persists set again (R152).
SPEED_LOST never persists (R151), so one set just before is cleared, although R152 says that a cause that has just arisen
leaves its flag set in either order (log 38). -/
def Conditions.acknowledge (c persists : Conditions) (mask : Byte) : Conditions :=
  ⟨if mask.getLsbD 0 then persists.speedLost else c.speedLost,
    if mask.getLsbD 1 then persists.spindleFault else c.spindleFault,
    if mask.getLsbD 2 then persists.positionUncertain else c.positionUncertain,
    if mask.getLsbD 3 then persists.recalFailed else c.recalFailed,
    if mask.getLsbD 4 then persists.supplyLow else c.supplyLow,
    if mask.getLsbD 5 then persists.ejectJammed else c.ejectJammed⟩

/-- Set a flag in one context, unless its link is not present (R151). -/
def PortContext.raise (c : PortContext) (f : Flag) : PortContext :=
  if c.linkPresent then { c with conditions := c.conditions.raise f } else c

/-- Set a flag in both ports (R151). -/
def State.raiseFlag (s : State) (f : Flag) : State := s.updBoth fun c => c.raise f

/-! ### What several blocks read -/

/-- The spindle is regulated: LOCKING or AT_SPEED. -/
def State.regulated (s : State) : Bool := s.spindle.state == .locking || s.spindle.state == .atSpeed

/-- Sector start events are raised: LOCKING or AT_SPEED with no fault pending (R31). -/
def State.raisesStarts (s : State) : Bool := s.regulated && !s.spindle.faultPending

/-- The spindle is AT_SPEED and is not about to brake for standby (R39, R29; log 19). -/
def State.spindleReady (s : State) : Bool := s.spindle.state == .atSpeed && !s.spindle.standbyStop

/-- A maintenance operation of port `p` is running (R129). -/
def State.maintRunning (s : State) (p : Port) : Bool :=
  match (s.ctx p).maint with
  | none => false
  | some m => m.outcome.isNone

/-- A maintenance operation is running (R129). -/
def State.anyMaintRunning (s : State) : Bool := s.maintRunning .a || s.maintRunning .b

/-- Port `p` holds the reservation. -/
def State.holds (s : State) (p : Port) : Bool :=
  match s.reservation with
  | none => false
  | some r => r.holder == p

/-- Port `p` holds the reservation in a mode. -/
def State.holdsIn (s : State) (p : Port) (m : ReserveMode) : Bool :=
  match s.reservation with
  | none => false
  | some r => r.holder == p && r.mode == m

/-- Custody is MOUNTED or BLANK. -/
def State.mediumReady (s : State) : Bool := s.custody.state == .mounted || s.custody.state == .blank

/-- The write-gate law of R82, apart from what is being served. -/
def State.gateLaw (s : State) : Bool :=
  s.spindle.state == .atSpeed && s.pos.state == .onTrack && s.pos.confidence == .known && s.supplyHigh &&
    s.custody.protect == some .writable

/-- The idle conditions of R29. -/
def State.idleConditions (s : State) : Bool :=
  s.spindle.state == .atSpeed && !s.spindle.faultPending && !s.spindle.standbyStop && s.session.isNone &&
    !(s.anyEntryIn .ready || s.anyEntryIn .inSession) && !s.anyMaintRunning &&
    (s.pos.state == .onTrack || s.pos.state == .unloaded) && !(s.custody.state == .mounting)

/-- The drain of an eject is complete (R108). -/
def State.drained (s : State) : Bool :=
  !(s.anyEntryIn .ready || s.anyEntryIn .inSession) && s.session.isNone && !s.anyMaintRunning

/-! ### Outputs derived from the state -/

/-- The brake output (R18). -/
def State.brakeOn (s : State) : Bool := s.spindle.state == .braking

/-- The head-load solenoid (R36). -/
def State.headLoadOn (s : State) : Bool := !(s.pos.state == .unloaded)

/-- The latch solenoid (R97). -/
def State.latchSolenoidOn (s : State) : Bool := s.custody.latchPulse.isSome

/-- The eject solenoid (R110). -/
def State.ejectSolenoidOn (s : State) : Bool := s.custody.ejectPulse.isSome

/-- The LOCKED lamp (R153). -/
def State.lockedLamp (s : State) : Bool := s.custody.latched

/-- The ATTENTION lamp (R153). -/
def State.attentionLamp (s : State) : Bool := s.custody.attentionTimer.isSome || s.custody.state == .jammed

/-- The BUSY lamp (R154). -/
def State.busyLamp (s : State) : Bool :=
  s.session.isSome || !(s.pos.state == .unloaded || s.pos.state == .onTrack)

/-- A port's attention line (R147). -/
def State.attentionLine (s : State) (p : Port) : Bool := !(s.ctx p).notices.isEmpty

end Sys2Proof.Machine
end

