-- ==== Sys2Proof/Machine/NoticeOps.lean ====
section
/-! DEFINITION. The Notice Units: posting, placing completions, taking and refilling (R146 to R150). -/

namespace Sys2Proof.Machine

/-- How many records a notice queue holds at most (R147). -/
def noticeRoom : Nat := 8

/-- Keep a record as its kind's pending record; the set stands in priority order, and a record of the same kind is
replaced whole (R148). -/
def keepPending : List Notice → Notice → List Notice
  | [], n => [n]
  | m :: rest, n =>
    if n.body.priority < m.body.priority then n :: m :: rest
    else if n.body.priority = m.body.priority then n :: rest
    else m :: keepPending rest n

/-- Post an event kind to one context (R148). -/
def PortContext.post (c : PortContext) (n : Notice) : PortContext :=
  if !c.linkPresent then c
  else if c.notices.length < noticeRoom then { c with notices := c.notices ++ [n] }
  else { c with pendingSet := keepPending c.pendingSet n }

/-- The record of an event kind posted now, with the generation given (R146). -/
def State.eventNotice (s : State) (b : NoticeBody) (generation : Nat) : Notice := ⟨b, s.time, generation, none⟩

/-- Post an event kind to a port, with the current generation (R146, R148). -/
def State.post (s : State) (p : Port) (b : NoticeBody) : State :=
  s.updCtx p fun c => c.post (s.eventNotice b s.custody.generation)

/-- Post an event kind to both ports. -/
def State.postBoth (s : State) (b : NoticeBody) : State :=
  s.updBoth fun c => c.post (s.eventNotice b s.custody.generation)

/-- The record of a completed entry, built whenever it is placed (R146). -/
def Entry.notice (e : Entry) : Notice :=
  ⟨.transferDone (e.outcome.getD .done) e.resolved, e.completionTime.getD 0, e.generation, some e.tag⟩

/-- The record of an ended maintenance operation (R146). -/
def Maint.notice (m : Maint) : Notice :=
  ⟨.maintenanceDone m.kind (m.outcome.getD (.done 0)), m.endTime, m.endGeneration, some m.tag⟩

/-- Mark the placement of the entry with a tag (R149). -/
def PortContext.place (c : PortContext) (tag : Byte) (pl : Placement) : PortContext :=
  { c with queue := c.queue.map fun e => if e.tag == tag then { e with placement := some pl } else e }

/-- Place a completed entry: queued when there is room, else at the tail of the held list (R149). -/
def PortContext.placeTransfer (c : PortContext) (tag : Byte) : PortContext :=
  match c.queue.find? fun e => e.tag == tag with
  | none => c
  | some e =>
    if !c.linkPresent then c
    else if c.notices.length < noticeRoom then
      { (c.place tag .queued) with notices := c.notices ++ [e.notice] }
    else { (c.place tag .held) with held := c.held ++ [.transfer tag] }

/-- Place an ended maintenance operation in the same way (R149). -/
def PortContext.placeMaint (c : PortContext) : PortContext :=
  match c.maint with
  | none => c
  | some m =>
    if !c.linkPresent then c
    else if c.notices.length < noticeRoom then { c with notices := c.notices ++ [m.notice] }
    else { c with held := c.held ++ [.maintenance] }

/-- The oldest request entry of the held list. -/
def oldestHeld : List HeldMember → Option Byte
  | [] => none
  | .transfer tag :: _ => some tag
  | .maintenance :: rest => oldestHeld rest

/-- Something waits for a place (R150). -/
def PortContext.waiting (c : PortContext) : Bool := !c.pendingSet.isEmpty || !c.held.isEmpty

/-- Fill one freed place: the pending kind of highest priority, else the maintenance member, else the oldest held
entry (R150). -/
def PortContext.refill (c : PortContext) : PortContext :=
  if noticeRoom ≤ c.notices.length then c
  else match c.pendingSet with
    | n :: rest => { c with notices := c.notices ++ [n], pendingSet := rest }
    | [] =>
      if c.held.contains .maintenance then
        { c with
          held := c.held.filter fun h => !(h == .maintenance)
          notices := c.notices ++ (c.maint.map Maint.notice).toList }
      else match oldestHeld c.held with
        | none => c
        | some tag =>
          { (c.place tag .queued) with
            held := c.held.filter fun h => !(h == .transfer tag)
            notices := c.notices ++ ((c.queue.find? fun e => e.tag == tag).map Entry.notice).toList }

/-- What the fetch of a TRANSFER_DONE does to its entry: a DONE READ whose data is unfetched becomes NOTICED, any
other entry is removed (R63). -/
def PortContext.noticeFetched (c : PortContext) (tag : Byte) : PortContext :=
  match c.queue.find? fun e => e.tag == tag with
  | none => c
  | some e =>
    if e.op == .read && e.outcome == some .done && !e.dataFetched then
      { c with queue := c.queue.map fun e => if e.tag == tag then { e with state := .noticed } else e }
    else { c with queue := c.queue.filter fun e => !(e.tag == tag) }

/-- The head record is taken: it leaves the queue, its owner is told, and the freed place is filled (R150). -/
def PortContext.takeNotice (c : PortContext) : PortContext :=
  match c.notices with
  | [] => c
  | n :: rest =>
    let c := { c with notices := rest }
    let c := match n.body, n.tag with
      | .transferDone _ _, some tag => c.noticeFetched tag
      | .maintenanceDone _ _, _ => { c with maint := none }
      | _, _ => c
    c.refill

end Sys2Proof.Machine
end

