-- ==== Sys2Proof/Machine/SpindleOps.lean ====
section
/-! DEFINITION. The Spindle Controller's own operations: starting, spin requests, braking, stopping, regulation
(R17 to R30). -/

namespace Sys2Proof.Machine

/-- Change the spindle. -/
def State.updSpindle (s : State) (f : Spindle → Spindle) : State := { s with spindle := f s.spindle }

/-- The timers of R23 and R25, stopped. -/
def Spindle.stopTimers (x : Spindle) : Spindle :=
  { x with firstIndexTimer := none, lockTimer := none, absenceTimer := none, regainTimer := none, quietTimer := none }

/-- Entering STARTING (R19). The restart flag ends with the start it asked for. -/
def State.enterStarting (s : State) : State :=
  s.updSpindle fun x =>
    { x.stopTimers with
      state := .starting
      duty := 255
      lastIndex := none
      period := none
      goodCount := 0
      badCount := 0
      restartFlag := false
      firstIndexTimer := s.startTimer 2000000
      lockTimer := s.startTimer 10000000 }

/-- A spin request (R19): not taken and not remembered while the supply is low. -/
def State.spinRequest (s : State) : State :=
  if !s.supplyHigh then s
  else match s.spindle.state with
    | .stopped => s.enterStarting
    | .starting => s
    | .locking =>
      if s.spindle.faultPending || s.spindle.standbyStop then s.updSpindle fun x => { x with restartFlag := true } else s
    | .atSpeed =>
      if s.spindle.faultPending || s.spindle.standbyStop then s.updSpindle fun x => { x with restartFlag := true } else s
    | .braking => s.updSpindle fun x => { x with restartFlag := true }
    | .coasting => s

/-- Custody waits at step SPINNING with no supply hold: it raises a spin request at a BRAKING or STOPPED report
(R98). -/
def State.waitsForSpeed (s : State) : Bool :=
  s.custody.state == .mounting && s.custody.step == some .spinning && !s.custody.supplyHold

/-- Entering BRAKING (R18, R23, R25, R33), and custody's spin request at its report (R98). -/
def State.enterBraking (s : State) : State :=
  let t : State :=
    { s with
      spindle := { s.spindle.stopTimers with
        state := .braking
        duty := 0
        quietTimer := s.startTimer 400000
        faultPending := false
        standbyStop := false }
      seq := { s.seq with current := none } }
  if t.waitsForSpeed then t.spinRequest else t

/-- Entering STOPPED (R25), and custody's spin requests at its report (R98, R108). Acting on the restart flag is the
step RESTART_ON_STOPPED (log 5). -/
def State.enterStopped (s : State) : State :=
  let t := s.updSpindle fun x => { x.stopTimers with state := .stopped, duty := 0, standbyFlag := false }
  if t.waitsForSpeed || (t.custody.state == .ejectPending && (t.anyEntryIn .ready || t.anyEntryIn .inSession)) then
    t.spinRequest
  else t

/-- The error E of a period (R20). -/
def speedError (period : Nat) : Int := (period : Int) - 20000

/-- The new duty: clamp(D + C, 40, 255) with C = E ÷ 32 clamped to -12..12 (R20). -/
def nextDuty (duty period : Nat) : Nat :=
  (clampInt ((duty : Int) + clampInt ((speedError period).tdiv 32) (-12) 12) 40 255).toNat

/-- X and P at an index event: P is the elapsed time from the old X, absent while there is none (R17). -/
def Spindle.takeIndex (x : Spindle) (now : Time) : Spindle :=
  { x with lastIndex := some now, period := x.lastIndex.map fun a => elapsed a now }

/-- The start of sector k after the index, floor(k * P / 20) (R31). -/
def sectorOffset (k period : Nat) : Nat := k * period / 20

/-- The regulated part of an index event in LOCKING or AT_SPEED: X, P, the duty, the revolution counter (R17, R20,
R30), and the restarted index absence timer while no fault is pending (R23, R24). -/
def State.regulate (s : State) : State :=
  s.updSpindle fun x =>
    let y := x.takeIndex s.time
    { y with
      duty := match y.period with | none => y.duty | some n => nextDuty y.duty n
      revolutions := y.revolutions + 1
      absenceTimer := if x.faultPending then x.absenceTimer else s.startTimer 40000 }

/-- |E| of the period now held is at most `bound`. -/
def Spindle.within (x : Spindle) (bound : Nat) : Bool :=
  match x.period with
  | none => false
  | some n => decide ((speedError n).natAbs ≤ bound)

end Sys2Proof.Machine
end

