-- ==== Sys2Proof/Machine/PositionerOps.lean ====
section
/-! DEFINITION. The Head Positioner's own operations: latching, stepping, seeks, creeps, retracts, loads, the unload,
and the requests of the Session Controller (R35 to R53). -/

namespace Sys2Proof.Machine

/-- Change the positioner. -/
def State.updPos (s : State) (f : Positioner → Positioner) : State := { s with pos := f s.pos }

/-- I[1] to I[N] as held now (R46). -/
def State.latchTable (s : State) : List Nat := s.params.intervals.take s.params.entries

/-- The ramp index r(i) = min(i, D + 1 - i, N) (R47). -/
def rampIndex (i distance n : Nat) : Nat := min i (min (distance + 1 - i) n)

/-- The latched interval that follows the pulse of step i (R47). -/
def Profile.interval (f : Profile) (i : Nat) : Nat :=
  f.table.getD (rampIndex i f.distance f.table.length - 1) 0

/-- The carriage after one pulse: one pitch, held by the stops at 0 and 640 (chapter 3, properties of the
mechanism). -/
def moveCarriage (c : Nat) : Direction → Nat
  | .inward => c - 1
  | .outward => min (c + 1) 640

/-- The counter after one pulse (R37). -/
def moveCounter (c : Int) : Direction → Int
  | .inward => c - 1
  | .outward => c + 1

/-- Issue one step pulse: the counter changes by one, the carriage moves, and the wait of the given length starts
(R37, R47, R49). -/
def State.pulse (s : State) (f : Profile) (wait : Nat) : State :=
  { s with
    carriage := moveCarriage s.carriage f.direction
    pos := { s.pos with
      counter := moveCounter s.pos.counter f.direction
      profile := some { f with stepIndex := f.stepIndex + 1 }
      stepTimer := s.startTimer wait } }

/-- Confidence becomes UNCERTAIN: the condition is set in both ports when it was KNOWN (R38). -/
def State.setUncertain (s : State) : State :=
  if s.pos.confidence == .known then (s.updPos fun x => { x with confidence := .uncertain }).raiseFlag .positionUncertain
  else s

/-- The profile of a move that starts now (R46). -/
def State.newProfile (s : State) (k : MoveKind) (d : Direction) (distance : Nat) : Profile :=
  ⟨k, d, distance, 0, s.latchTable, s.params.settle⟩

/-- Start a profiled move: the pulse of step 1, or, for distance 0, a wait of no length (R47). -/
def State.startMove (s : State) (f : Profile) : State :=
  if f.distance = 0 then s.updPos fun x => { x with profile := some f, stepTimer := s.startTimer 0 }
  else s.pulse f (f.interval 1)

/-- Enter SETTLING with a settle of the given length (R48, R50). -/
def State.enterSettling (s : State) (settle : Nat) : State :=
  s.updPos fun x => { x with state := .settling, stepTimer := none, settleTimer := s.startTimer settle }

/-- A seek stage to position p (R48): distance 0 settles at once. -/
def State.beginSeek (s : State) (p : Nat) : State :=
  let d := ((p : Int) - s.pos.counter).natAbs
  let f := s.newProfile .seek (if s.pos.counter < (p : Int) then .outward else .inward) d
  let t := s.updPos fun x => { x with state := .seeking, plan := [], profile := some f }
  if d = 0 then t.enterSettling f.settle else t.startMove f

/-- A creep, which latches I[1] alone; its first sensor test follows a wait of no length (R46, R49; log 23). -/
def State.beginCreep (s : State) : State :=
  s.updPos fun x =>
    { x with
      state := .recalibrating
      profile := some ⟨.creep, .inward, 660, 0, s.latchTable.take 1, s.params.settle⟩
      stepTimer := s.startTimer 0 }

/-- Begin a recalibration: a recalibration seek of the counted distance when KNOWN, a creep when UNCERTAIN (R50). -/
def State.beginRecalibration (s : State) : State :=
  let t := s.updPos fun x => { x with state := .recalibrating }
  if s.pos.confidence == .known then t.startMove (t.newProfile .recalSeek .inward s.pos.counter.toNat)
  else t.beginCreep

/-- Begin a load with the stages that follow it (R43). -/
def State.beginLoad (s : State) (plan : List Stage) : State :=
  s.updPos fun x => { x with state := .loading, plan := plan, loadTimer := s.startTimer 50000 }

/-- The ordinary retract (R52): 640 less the counter when KNOWN, 660 steps when UNCERTAIN. -/
def State.beginRetract (s : State) : State :=
  let d := if s.pos.confidence == .known then (640 - s.pos.counter).toNat else 660
  let t := s.updPos fun x =>
    { x with state := .retracting, plan := [], heldRetract := false, loadTimer := none, settleTimer := none }
  t.startMove (t.newProfile .retract .outward d)

/-- The unload that ends every retract (R44). -/
def State.unload (s : State) : State :=
  s.updPos fun x =>
    { x with
      state := .unloaded
      counter := 640
      confidence := .known
      profile := none
      stepTimer := none
      settleTimer := none }

/-- The seek target among an outstanding request. -/
def PosRequest.target : PosRequest → Option Nat
  | .seek p => some p
  | .recalibrate => none

/-- A load is abandoned (R43): UNLOADED, the seek's target kept as the waiting target, the stage plan discarded. An
outstanding recalibrate request is left for the caller to answer. -/
def State.abandonLoad (s : State) : State :=
  s.updPos fun x =>
    { x with
      state := .unloaded
      loadTimer := none
      plan := []
      waitingTarget := x.request.bind PosRequest.target }

/-- A seek request to p (R39). The Session Controller sends it only in ON_TRACK and UNLOADED. -/
def State.seekRequest (s : State) (p : Nat) : State :=
  match s.pos.state with
  | .onTrack =>
    let t := s.updPos fun x => { x with request := some (.seek p) }
    if s.pos.confidence == .known then t.beginSeek p
    else (t.updPos fun x => { x with plan := [.seek p] }).beginRecalibration
  | .unloaded =>
    let t := s.updPos fun x => { x with request := some (.seek p) }
    if s.spindleReady then t.beginLoad [.recalibrate, .seek p]
    else t.updPos fun x => { x with waitingTarget := some p }
  | _ => s

/-- The waiting target is withdrawn or discarded, and its request with it (R39). -/
def State.dropWaiting (s : State) : State :=
  if s.pos.waitingTarget.isSome then s.updPos fun x => { x with waitingTarget := none, request := none } else s

/-- The sensor has been found (R50): position 0 KNOWN, and the next stage, unless a held retract waits. -/
def State.sensorFound (s : State) : State :=
  let t := { (s.updPos fun x =>
      { x with counter := 0, confidence := .known, profile := none, stepTimer := none }) with recalOutstanding := false }
  if t.pos.heldRetract then t
  else match t.pos.plan with
    | .seek p :: _ => t.beginSeek p
    | _ => t.enterSettling t.params.settle

/-- A stage has ended with the held retract set (R41): nothing of the stage still runs. -/
def State.stageEndedHeld (s : State) : Bool :=
  s.pos.heldRetract && (s.pos.state == .recalibrating || s.pos.state == .seeking || s.pos.state == .settling) &&
    s.pos.stepTimer.isNone && s.pos.settleTimer.isNone

/-! ### Standby and the idle timer (R28, R29) -/

/-- Taking standby (R29): the standby stop starts, and heads that are ON_TRACK retract. -/
def State.takeStandby (s : State) : State :=
  let t := s.updSpindle fun x => { x with standbyStop := true, idleCount := 0, idleTimer := none }
  if t.pos.state == .onTrack then t.beginRetract else t

/-- The standby flag, or the idle limit reached, asks for standby (R28, R29). -/
def State.standbyWanted (s : State) : Bool :=
  s.spindle.standbyFlag || (s.params.standbyLimit != 0 && decide (10 * s.params.standbyLimit ≤ s.spindle.idleCount))

/-- The idle timer starts when the idle conditions come to hold and stops when one fails, and standby is taken at the
first moment both the conditions and the wish for it hold (R29). -/
def State.judgeIdle (s : State) : State :=
  if s.idleConditions then
    let t := if s.spindle.idleTimer.isSome then s
      else s.updSpindle fun x => { x with idleCount := 0, idleTimer := s.startTimer 1000000 }
    if t.standbyWanted then t.takeStandby else t
  else s.updSpindle fun x => { x with idleCount := 0, idleTimer := none }

end Sys2Proof.Machine
end

