-- ==== Sys2Proof/Machine/RequestOps.lean ====
section
/-! DEFINITION. Request Queues and the Slot Table: completion, removal, the slots of a request and the outcome they
form (R56, R59, R62, R90), and the write gate's drop (R82). -/

namespace Sys2Proof.Machine

/-! ### Entries -/

/-- The first sector of an absolute request; none for EARLIEST (R56). -/
def FirstSector.absolute? : FirstSector → Option Nat
  | .absolute k => some k
  | .earliest => none

/-- Buffers that are released at completion: a WRITE's, and those of a READ that is not DONE (R59). -/
def Entry.releasesAt (e : Entry) (o : XferOutcome) : Bool := e.op == .write || !(o == .done)

/-- The entry as its completion records it at time `now` (R62). -/
def Entry.complete (e : Entry) (o : XferOutcome) (now : Time) : Entry :=
  { e with
    state := .completeUnnoticed
    outcome := some o
    completionTime := some now
    cancelling := false
    buffers := if e.releasesAt o then [] else e.buffers }

/-- Completion (R62): the outcome, the time, the state, the released buffers, and the notice handed on (R149). -/
def State.completeEntry (s : State) (p : Port) (tag : Byte) (o : XferOutcome) : State :=
  match s.entry? p tag with
  | none => s
  | some e =>
    let t := s.updEntry p tag fun e => e.complete o s.time
    let t := if e.releasesAt o then t.assignBuffers e.buffers none else t
    t.updCtx p fun c => c.placeTransfer tag

/-- Removal: the entry leaves the queue and its buffers return to FREE (R57, R59). -/
def State.removeEntry (s : State) (p : Port) (tag : Byte) : State :=
  match s.entry? p tag with
  | none => s
  | some e => (s.dropEntry p tag).assignBuffers e.buffers none

/-- The failure of an entry that holds no slots: its failing sector is an absolute first sector (R68, R90). -/
def Entry.slotlessFailure (e : Entry) (c : Cause) : XferOutcome := .failed e.first.absolute? c

/-! ### Slots -/

/-- Change every slot. -/
def State.mapSlots (s : State) (f : Slot → Slot) : State := { s with slots := s.slots.map f }

/-- Return every slot of an entry to EMPTY. -/
def State.emptySlots (s : State) (p : Port) (tag : Byte) : State :=
  s.mapSlots fun x => if x.heldBy p tag then Slot.blank else x

/-- Return the ARMED and DEFERRED slots of an entry to EMPTY (R65). -/
def State.emptyWaitingSlots (s : State) (p : Port) (tag : Byte) : State :=
  s.mapSlots fun x => if x.heldBy p tag && (x.state == .armed || x.state == .deferred) then Slot.blank else x

/-- Return every slot of an entry but an ACTIVE one to EMPTY (R67). -/
def State.emptyOtherSlots (s : State) (p : Port) (tag : Byte) : State :=
  s.mapSlots fun x => if x.heldBy p tag && !(x.state == .active) then Slot.blank else x

/-- An entry has an ACTIVE slot. -/
def State.hasActiveSlot (s : State) (p : Port) (tag : Byte) : Bool :=
  s.slots.any fun x => x.heldBy p tag && x.state == .active

/-- An entry has a slot whose work has not ended. -/
def State.hasOpenSlot (s : State) (p : Port) (tag : Byte) : Bool :=
  s.slots.any fun x => x.heldBy p tag && x.nonFinal

/-- How many slots of an entry are DONE (R65, R90). -/
def State.doneSlots (s : State) (p : Port) (tag : Byte) : Nat :=
  (s.slots.filter fun x => x.heldBy p tag && x.state == .done).length

/-- Every slot is EMPTY. -/
def State.allSlotsEmpty (s : State) : Bool := s.slots.all fun x => x.state == .empty

/-- The sectors of `count` positions from sector `first` on, in request order (R56). -/
def requestSectors (first count : Nat) : List Nat := (List.range count).map fun i => (first + i) % 20

/-- The position of sector `k` in a request whose first sector is `first` (R56). -/
def requestPosition (first k : Nat) : Nat := (k + 20 - first) % 20

/-- The outcome that an entry's final slots form (R90). -/
def State.outcomeOf (s : State) (e : Entry) : XferOutcome :=
  match e.resolved with
  | none => .done
  | some r =>
    match (requestSectors r e.count).find? fun k => (s.slot k).state == .failed with
    | none => .done
    | some k => .failed (some k) ((s.slot k).cause.getD .noHeader)

/-! ### The write gate (R82) -/

/-- The operation records a data field. -/
def OpKind.writes : OpKind → Bool
  | .write => true
  | .recordWrite => true
  | _ => false

/-- A WRITE or record write, or a format pass, is being served. -/
def State.writeServed (s : State) : Bool :=
  s.seq.pass.isSome || match s.seq.op with
    | none => false
    | some o => o.kind.writes

/-- The head of the open session. -/
def State.sessionHead (s : State) : Nat :=
  match s.session with
  | none => 0
  | some x => x.head

/-- A sector in which a format pass was cut off (R9): how far the recording had come is open, in the gaps too
(log 9). -/
def cutSector (seed : Nat) : SectorImage := ⟨.cut seed, .torn seed, ⟨.cut seed, .cut seed, .cut seed⟩⟩

/-- The gate goes off. What it was recording and had not recorded whole is torn (R5) or cut (R9; log 9). -/
def State.dropGate (s : State) : State :=
  if !s.seq.gate then s
  else
    let t : State := { s with seq := { s.seq with gate := false } }
    match s.seq.op, s.seq.pass, s.seq.current with
    | some o, _, _ =>
      if o.kind.writes && !o.recorded then
        (t.setImage t.sessionHead o.sector { (t.image t.sessionHead o.sector) with data := .torn t.freeCount }).countFree
      else t
    | none, some _, some k => (t.setImage t.sessionHead k (cutSector t.freeCount)).countFree
    | _, _, _ => t

/-- The gate drops when a condition of the law has ceased to hold, or when nothing that writes is served (R82). -/
def State.dropGateByLaw (s : State) : State :=
  if s.gateLaw && s.writeServed then s else s.dropGate

end Sys2Proof.Machine
end

