-- ==== Sys2Proof/Machine/SessionOps.lean ====
section
/-! DEFINITION. The Session Controller's own operations: eligibility, joining, arming, the close judgement,
cancellation, resumption and the answers to its seeks (R73 to R79, R85, R90, R91). -/

namespace Sys2Proof.Machine

/-- Change the open session. -/
def State.updSession (s : State) (f : Session → Session) : State := { s with session := s.session.map f }

/-- An entry of port `p` is eligible (R73, R121). -/
def State.eligible (s : State) (p : Port) (e : Entry) : Bool :=
  !(s.holdsIn p.other .exclusive) && !(e.op == .write && s.holdsIn p.other .write)

/-- The arming distance from the current sector `c` to sector `k` (R78). -/
def armingDistance (c k : Nat) : Nat := (k + 20 - c) % 20

/-- The state in which a slot is armed (R78). -/
def armedState (lead c k : Nat) : SlotState := if lead ≤ armingDistance c k then .armed else .deferred

/-- The current sector as the Session Controller reads it (R33: it is present at every arming). -/
def State.currentSector (s : State) : Nat := s.seq.current.getD 0

/-- The first sector that an entry takes if it is armed now (R76, R79). -/
def State.resolve (s : State) (e : Entry) : Nat :=
  match e.first with
  | .absolute k => k
  | .earliest => (s.currentSector + s.params.lead) % 20

/-- Arm slots for an owner (R76, R78). -/
def State.armSlots (s : State) (owner : SlotOwner) (tag : Option Byte) (retries : Nat) (sectors : List Nat) : State :=
  let c := s.currentSector
  { s with
    slots := sectors.foldl
      (fun slots k => slots.set k ⟨armedState s.params.lead c k, some owner, tag, retries, none⟩) s.slots }

/-- Arm an entry (R76): its first sector is resolved and its slots are set. -/
def State.armEntry (s : State) (p : Port) (tag : Byte) : State :=
  match s.entry? p tag with
  | none => s
  | some e =>
    let r := s.resolve e
    (s.updEntry p tag fun e => { e with resolved := some r }).armSlots (.port p) (some tag) e.retry
      (requestSectors r e.count)

/-- An entry is taken into the session at position `track` (R75, R77). -/
def State.takeIn (s : State) (p : Port) (tag : Byte) (track : Nat) : State :=
  s.updEntry p tag fun e => { e with state := .inSession, position := some track }

/-- The session takes joiners now (R77). -/
def Session.takesJoiners (x : Session) : Bool :=
  decide (x.revolutions < 3) && x.phase == .serving && !x.suspended && !x.failed && x.owner == .station

/-- A READY entry may join the open session now (R77). -/
def State.canJoin (s : State) (p : Port) (e : Entry) : Bool :=
  match s.session with
  | none => false
  | some x =>
    e.state == .ready && x.takesJoiners && s.eligible p e && translate s.copy e.track == x.track && e.head == x.head &&
      (requestSectors (s.resolve e) e.count).all fun k => (s.slot k).state == .empty

/-- Judge one entry for joining; one that may join is taken in and armed at once (R77). -/
def State.judgeJoin (s : State) (p : Port) (tag : Byte) : State :=
  match s.session, s.entry? p tag with
  | some x, some e => if s.canJoin p e then (s.takeIn p tag x.track).armEntry p tag else s
  | _, _ => s

/-- Judge every READY entry for joining, A's in queue order and then B's (R76, R77). -/
def State.judgeJoins (s : State) : State :=
  let t := (s.tagsIn .a .ready).foldl (fun u tag => u.judgeJoin .a tag) s
  (t.tagsIn .b .ready).foldl (fun u tag => u.judgeJoin .b tag) t

/-! ### Close (R91) -/

/-- The conditions of R91 for the close of session `x`, once the READY entries have been judged for joining. -/
def State.closable (s : State) (x : Session) : Bool :=
  s.allSlotsEmpty && !s.anyEntryIn .inSession && (!x.seekOutstanding || s.pos.waitingTarget.isSome) &&
    !(x.owner == .drive && s.driveReq.isSome)

/-- The close: a waiting target still held is withdrawn (R91). -/
def State.closeSession (s : State) : State := { s.dropWaiting with session := none }

/-- The close judgement (R91): a session that has not failed first judges the READY entries. -/
def State.closeJudgement (s : State) : State :=
  let t := s.judgeJoins
  match t.session with
  | none => t
  | some x => if t.closable x then t.closeSession else t

/-! ### Arming pass (R76) -/

/-- Arm the entries already taken in, and not yet armed: the candidate (R76). -/
def State.armCandidates (s : State) : State :=
  Port.both.foldl
    (fun u p => ((u.ctx p).queue.filter fun e => e.state == .inSession && !e.discard && e.resolved.isNone).foldl
      (fun u e => u.armEntry p e.tag) u) s

/-- Arm drive-owned work: sector 0 for a record read or write, with three retries; nothing for a format pass (R92,
R93). -/
def State.armDrive (s : State) : State :=
  match s.driveReq with
  | some r => if r.kind = .formatPass then s else s.armSlots .drive none 3 [0]
  | none => s

/-- The arming pass (R76): SERVING, the candidate armed, the READY entries judged; a pass that arms nothing makes the
close judgement. -/
def State.armingPass (s : State) : State :=
  match s.session with
  | none => s
  | some x =>
    let t := s.updSession fun x => { x with phase := .serving }
    let t := if x.owner == .drive then t.armDrive else t.armCandidates.judgeJoins
    if t.allSlotsEmpty then t.closeJudgement else t

/-! ### Resumption (R85) -/

/-- Re-judge the ARMED slots against the current sector (R85). -/
def State.rejudgeArmed (s : State) : State :=
  let c := s.currentSector
  { s with
    slots := s.slots.mapIdx fun k x =>
      if x.state == .armed then { x with state := armedState s.params.lead c k } else x }

/-- SPEED may be removed: the spindle is AT_SPEED (R85). -/
def State.speedRestored (s : State) : Bool := s.spindle.state == .atSpeed

/-- POSITION may be removed: the reseek has been answered at ON_TRACK (R85). -/
def State.positionRestored (s : State) (x : Session) : Bool := !x.seekOutstanding && s.pos.state == .onTrack

/-- The suspension reasons that no longer stand are removed; when the last one goes, the ARMED slots are judged again
and the READY entries are judged for joining (R85). A SERVING session left with nothing then closes (log 24). -/
def State.resumeSession (s : State) : State :=
  match s.session with
  | none => s
  | some x =>
    let y := { x with
      speedSuspended := x.speedSuspended && !s.speedRestored
      positionSuspended := x.positionSuspended && !s.positionRestored x }
    let t : State := { s with session := some y }
    if x.suspended && !y.suspended && y.phase == .serving then t.rejudgeArmed.closeJudgement else t

/-- A suspension reason of the open session no longer stands. -/
def State.resumeDue (s : State) : Bool :=
  match s.session with
  | none => false
  | some x => (x.speedSuspended && s.speedRestored) || (x.positionSuspended && s.positionRestored x)

/-! ### A change of reservation, an entry becoming READY -/

/-- A change of reservation reaches the Session Controller (R116): a SERVING session judges the READY entries. The
arbiter's choice is its own step (log 5). -/
def State.reservationChanged (s : State) : State := s.judgeJoins

/-- An entry has become READY (R58): a spin request, and a judgement of the entry alone (R77). -/
def State.entryReady (s : State) (p : Port) (tag : Byte) : State := s.spinRequest.judgeJoin p tag

/-! ### Cancellation (R65, R66, R90) -/

/-- Cancellation of an IN_SESSION entry: its waiting slots are emptied; it completes now, or when its ACTIVE operation
ends. A discard-marked entry is left as it is. -/
def State.cancelEntry (s : State) (p : Port) (tag : Byte) : State :=
  match s.entry? p tag with
  | none => s
  | some e =>
    if e.discard || !(e.state == .inSession) then s
    else if s.hasActiveSlot p tag then
      (s.emptyWaitingSlots p tag).updEntry p tag fun e => { e with cancelling := true }
    else
      ((s.emptySlots p tag).completeEntry p tag (.cancelled (s.doneSlots p tag))).closeJudgement

/-- The cancellation of R66 for the entries of one port that `pick` selects: READY entries complete CANCELLED with 0
sectors, IN_SESSION ones are cancelled. -/
def State.cancelReady (s : State) (p : Port) (pick : Entry → Bool) : State :=
  ((s.ctx p).queue.filter fun e => e.state == .ready && pick e).foldl
    (fun u e => u.completeEntry p e.tag (.cancelled 0)) s

/-- The IN_SESSION part of R66. -/
def State.cancelInSession (s : State) (p : Port) (pick : Entry → Bool) : State :=
  ((s.ctx p).queue.filter fun e => e.state == .inSession && pick e).foldl (fun u e => u.cancelEntry p e.tag) s

/-- The cancellation of R66 over both ports. -/
def State.cancelAll (s : State) (pick : Entry → Bool) : State :=
  (((s.cancelReady .a pick).cancelReady .b pick).cancelInSession .a pick).cancelInSession .b pick

/-! ### Answers to the session's seek (R39, R75, R91) -/

/-- Seek done: the arming pass in POSITIONING; the close judgement in a failed session. A SERVING session that was
suspended for POSITION resumes by the step SESSION_RESUME (log 5). -/
def State.sessionSeekDone (s : State) : State :=
  match s.session with
  | none => s
  | some x =>
    let t := s.updSession fun x => { x with seekOutstanding := false }
    if x.failed then t.closeJudgement
    else match x.phase with
      | .positioning => t.armingPass
      | .serving => t

/-- Seek failed, reason ABANDONED: the close judgement in a failed session (R75, R91). -/
def State.sessionSeekAbandoned (s : State) : State :=
  match s.session with
  | none => s
  | some x =>
    let t := s.updSession fun x => { x with seekOutstanding := false }
    if x.failed then t.closeJudgement else t

/-- The session's waiting target is discarded or withdrawn, and its seek answered with it (R39). -/
def State.discardWaiting (s : State) : State :=
  if s.pos.waitingTarget.isSome then s.dropWaiting.sessionSeekAbandoned else s

/-! ### Retract request (R41) -/

/-- A retract request. A seek that it ends is answered ABANDONED. A recalibrate request that it ends is Custody's own,
sent before the mount was rejected, and its answer has no effect there (R99). -/
def State.retractRequest (s : State) : State :=
  match s.pos.state with
  | .unloaded => s.discardWaiting
  | .loading =>
    let t := s.updPos fun x => { x with state := .unloaded, loadTimer := none, plan := [], waitingTarget := none, request := none }
    if (s.pos.request.bind PosRequest.target).isSome then t.sessionSeekAbandoned else t
  | .onTrack => s.beginRetract
  | .recalibrating => s.updPos fun x => { x with heldRetract := true }
  | .seeking => s.updPos fun x => { x with heldRetract := true }
  | .settling => s.updPos fun x => { x with heldRetract := true }
  | .retracting => s
  | .emergencyRetract => s

end Sys2Proof.Machine
end

