-- ==== Sys2Proof/Machine/CustodyOps.lean ====
section
/-! DEFINITION. Access Control's reservation and locks (R116 to R124), and the Cartridge Custody Controller's own
operations (R98 to R113). -/

namespace Sys2Proof.Machine

/-! ### Access Control -/

/-- Clear the locks of both ports (R124). -/
def State.clearLocks (s : State) : State := s.updBoth fun c => { c with lockHeld := false }

/-- The idle timer of a reservation with a limit, started now (R118). -/
def State.limitTimer (s : State) (limit : Nat) : Option Timer :=
  if limit = 0 then none else s.startTimer (limit * 1000000)

/-- A held reservation is freed, with the notices of its ending, and the change is reported (R116, R119). -/
def State.freeReservation (s : State) (toHolder : Option NoticeBody) : State :=
  match s.reservation with
  | none => s
  | some r =>
    let t : State := { s with reservation := none }
    let t := match toHolder with
      | none => t
      | some b => t.post r.holder b
    (t.post r.holder.other .reservationFreed).reservationChanged

/-- Break the reservation (R122). -/
def State.breakReservation (s : State) : State := s.freeReservation (some .reservationBroken)

/-- The reservation, freed if port `p` holds it (R127). -/
def State.freeIfHeldBy (s : State) (p : Port) : State := if s.holds p then s.freeReservation none else s

/-- Port `p` does not hold the reservation, and the other port does (R120). -/
def State.otherHolds (s : State) (p : Port) : Bool := s.holds p.other

/-! ### Custody -/

/-- Change the custody record. -/
def State.updCustody (s : State) (f : Custody → Custody) : State := { s with custody := f s.custody }

/-- The next media generation (R102). -/
def nextGeneration (g : Nat) : Nat := if g = 255 then 1 else g + 1

/-- The media generation increases (R102). -/
def State.raiseGeneration (s : State) : State :=
  s.updCustody fun u => { u with generation := nextGeneration u.generation }

/-- Entering UNMOUNTING sends a retract request (R109). -/
def State.enterUnmounting (s : State) : State :=
  (s.updCustody fun u => { u with state := .unmounting, step := none, stopSent := false, attemptDue := false }).retractRequest

/-- A rejection of the mount (R103). -/
def State.rejectMount (s : State) (r : RejectReason) : State :=
  ((((s.updCustody fun u =>
    { u with
      ejectCause := .reject
      step := none
      lastMount := some (.rejected r)
      deferredEject := false
      forcedRejection := none
      latchTimer := none
      supplyHold := false }).clearLocks).postBoth (.mediumRejected r))).enterUnmounting

/-- Entering step SPINNING: a spin request with the supply high, else the supply hold (R98, R113). -/
def State.enterSpinning (s : State) : State :=
  let t := s.updCustody fun u => { u with step := some .spinning, supplyHold := !s.supplyHigh }
  t.spinRequest

/-- Entering EJECT_PENDING: a spin request if an entry is READY (R108). The drain judgement is the step DRAIN_COMPLETE
(log 5). -/
def State.enterEjectPending (s : State) (c : EjectCause) : State :=
  let t := s.updCustody fun u => { u with state := .ejectPending, ejectCause := c }
  if t.anyEntryIn .ready then t.spinRequest else t

/-- A new release attempt begins: RELEASING, with the first pulse still to be given (R110, R111, R113). -/
def State.newAttempt (s : State) : State :=
  s.updCustody fun u => { u with state := .releasing, jamCount := 0, releaseTimer := none, attemptDue := true }

/-- A short press is refused: a lock is held, or the reservation in EXCLUSIVE mode (R106). -/
def State.pressRefused (s : State) : Bool :=
  s.portA.lockHeld || s.portB.lockHeld || s.holdsIn .a .exclusive || s.holdsIn .b .exclusive

/-- Why port `p` is asked for the cartridge, if it is (R106). -/
def State.askedFor (s : State) (p : Port) : Option AskedFor :=
  match (s.ctx p).lockHeld, s.holds p with
  | true, true => some .both
  | true, false => some .lock
  | false, true => some .reservation
  | false, false => none

/-- The EJECT_ASKED notice of a port that holds a lock or the reservation (R106). -/
def State.askPort (s : State) (p : Port) : State :=
  match s.askedFor p with
  | none => s
  | some why => s.post p (.ejectAsked why)

/-- The refusal of a short press (R106). -/
def State.refusePress (s : State) : State :=
  ((s.updCustody fun u => { u with attentionTimer := s.startTimer 3000000 }).askPort .a).askPort .b

/-- A short press, taken with the supply high (R105, R106, R111). -/
def State.shortPress (s : State) : State :=
  if !s.supplyHigh then s
  else match s.custody.state with
    | .mounted => if s.pressRefused then s.refusePress else s.enterEjectPending .panel
    | .blank => if s.pressRefused then s.refusePress else s.enterEjectPending .panel
    | .mounting => if s.pressRefused then s.refusePress else s.updCustody fun u => { u with deferredEject := true }
    | .jammed => s.newAttempt
    | _ => s

/-- A forced eject of a cartridge in MOUNTED, BLANK or EJECT_PENDING (R107). -/
def State.forcedEject (s : State) : State :=
  (s.clearLocks.breakReservation.cancelAll fun _ => true).enterEjectPending .forced

/-- A long press during MOUNTING rejects the mount, at once or at the end of the step (R107). -/
def State.forcedMountRejection (s : State) : State :=
  let t := s.clearLocks.breakReservation
  match s.custody.step with
  | some .latching => t.updCustody fun u => { u with forcedRejection := some .latch }
  | some .spinning => t.rejectMount .spindle
  | some .loading => t.rejectMount .position
  | some .recalibrating => t.rejectMount .position
  | some .readingRecord => t.updCustody fun u => { u with forcedRejection := some .position }
  | none => t

/-- A long press, taken with the supply high (R105, R107, R111). -/
def State.longPress (s : State) : State :=
  if !s.supplyHigh then s
  else match s.custody.state with
    | .mounted => s.forcedEject
    | .blank => s.forcedEject
    | .ejectPending => s.forcedEject
    | .mounting => s.forcedMountRejection
    | .jammed => s.newAttempt
    | _ => s

/-- The mount completes: the record becomes the copy, or the copy stays absent and the cartridge is BLANK; then the
generation, the locks, the notices, the result and a deferred eject, in the order of R101. -/
def State.mountComplete (s : State) (record : Option MediaRecord) : State :=
  let t : State := { s.updCustody fun u =>
    { u with state := if record.isSome then .mounted else .blank, step := none } with copy := record }
  let t := t.raiseGeneration.clearLocks
  let t := t.postBoth (if record.isSome then .mediumMounted else .mediumBlank)
  let t := t.updCustody fun u => { u with lastMount := some (if record.isSome then .mounted else .blank) }
  if t.custody.deferredEject then (t.updCustody fun u => { u with deferredEject := false }).shortPress else t

/-- The record that the record buffer holds, if it passes R12. -/
def State.recordRead (s : State) : Option MediaRecord :=
  let b := s.bufferBytes recordBuffer
  if validRecord b then some (decodeRecord b) else none

/-- The positioner stands RETRACTING or UNLOADED: a recalibration failed during the read's reseek (R100). -/
def State.readRecalFailed (s : State) : Bool := s.pos.state == .retracting || s.pos.state == .unloaded

/-- The outcome of the mount's record read (R100): without effect once the mount is rejected or while the supply hold
is set; a forced rejection that waits is taken first (R103; log 25). -/
def State.recordReadJudgement (s : State) (o : DriveOutcome) : State :=
  if s.custody.state == .mounting && s.custody.step == some .readingRecord && !s.custody.supplyHold then
    match s.custody.forcedRejection with
    | some r => s.rejectMount r
    | none =>
      match o with
      | .done => s.mountComplete s.recordRead
      | .failed .speed => s.rejectMount .spindle
      | .failed .position => if s.readRecalFailed then s.rejectMount .position else s.mountComplete none
      | .failed .supply => s
      | .failed _ => s.mountComplete none
  else s

/-- Custody waits for the answer to its recalibrate request at a step (R99). -/
def State.mountsAt (s : State) (k : MountStep) : Bool :=
  s.custody.state == .mounting && s.custody.step == some k && !s.custody.supplyHold

/-- Recalibration failed reaches custody (R99). -/
def State.custodyRecalFailed (s : State) : State :=
  if s.mountsAt .loading then s.enterSpinning
  else if s.mountsAt .recalibrating then s.rejectMount .position
  else s

/-- Recalibration done reaches custody: READING_RECORD, and the record read is handed on (R99, R100). -/
def State.custodyRecalDone (s : State) : State :=
  if s.mountsAt .recalibrating then
    { s.updCustody fun u => { u with step := some .readingRecord } with
      driveReq := some ⟨.recordRead, 0, 0, .custody⟩ }
  else s

/-- Custody sees the positioner RECALIBRATING: step LOADING goes to RECALIBRATING (R99). -/
def State.custodyRecalSeen (s : State) : State :=
  if s.mountsAt .loading then s.updCustody fun u => { u with step := some .recalibrating } else s

/-- The recalibrate request (R40). It is sent in ON_TRACK or UNLOADED only. -/
def State.recalibrateRequest (s : State) : State :=
  let t := s.updPos fun x => { x with request := some .recalibrate }
  match s.pos.state with
  | .onTrack => t.beginRecalibration.custodyRecalSeen
  | .unloaded =>
    if s.spindle.state == .atSpeed then t.beginLoad [.recalibrate]
    else s.custodyRecalFailed
  | _ => s

/-- A spindle fault report reaches custody: the mount is rejected from SPINNING on, unless the supply hold is set
(R98, R113). -/
def State.custodySpindleFault (s : State) : State :=
  if s.custody.state == .mounting && !(s.custody.step == some .latching) && !s.custody.supplyHold then
    s.rejectMount .spindle
  else s

/-- Custody's part of a falling supply edge (R113). -/
def State.custodySupplyEdge (s : State) : State :=
  match s.custody.state, s.custody.step with
  | .mounting, some .latching => s
  | .mounting, _ =>
    match s.custody.forcedRejection with
    | some r => s.rejectMount r
    | none => s.updCustody fun u => { u with step := some .spinning, supplyHold := true }
  | .releasing, _ => s.updCustody fun u => { u with releaseTimer := none }
  | _, _ => s

/-- Custody's part of a recovery (R113). -/
def State.custodyRecovery (s : State) : State :=
  if s.custody.state == .mounting && s.custody.supplyHold then
    (s.updCustody fun u => { u with supplyHold := false }).spinRequest
  else if s.custody.state == .releasing then s.newAttempt
  else s

/-- The release completes (R112). -/
def State.completeRelease (s : State) : State :=
  let cause := s.custody.ejectCause
  let t : State := { s with copy := none, medium := [] }
  let t := t.updCustody fun u =>
    { u with
      state := .empty
      releaseTimer := none
      protect := none
      latched := false
      jamCount := 0
      deferredEject := false
      attemptDue := false
      stopSent := false }
  let t := t.clearLocks
  let t := if cause = .reject then t else t.postBoth (.mediumRemoved cause)
  t.updCustody fun u => { u with ejectCause := .none }

/-- The stop request of an unmount (R27). -/
def State.stopRequest (s : State) : State :=
  let t := s.updSpindle fun x => { x with restartFlag := false }
  match s.spindle.state with
  | .starting => t.enterBraking
  | .locking => t.enterBraking
  | .atSpeed => t.enterBraking
  | _ => t

/-- One eject pulse of a release attempt (R110); the first one clears latched. -/
def State.ejectPulse (s : State) : State :=
  s.updCustody fun u =>
    { u with
      ejectPulse := s.startTimer 80000
      jamCount := u.jamCount + 1
      latched := if u.jamCount = 0 then false else u.latched
      attemptDue := false }

/-- The eject law: the positioner is UNLOADED and the spindle STOPPED (R110). -/
def State.ejectLaw (s : State) : Bool := s.pos.state == .unloaded && s.spindle.state == .stopped

end Sys2Proof.Machine
end

