-- ==== Sys2Proof/Machine/DriveOps.lean ====
section
/-! DEFINITION. Drive-owned work and failures: the end of a maintenance operation (R129, R135, R136), the outcome of a
drive-owned request (R92), the failure of a session (R87 to R89), the end of a sector operation (R81, R83, R86, R90),
the format pass (R93), a speed loss (R22, R84), a spindle fault (R24, R54, R88) and a recalibration failure (R51). -/

namespace Sys2Proof.Machine

/-! ### Maintenance (R129) -/

/-- The commit of WRITE MEDIA RECORD (R135). -/
def State.commitRecord (s : State) (starting : StartingCustody) (r : MediaRecord) : State :=
  match starting, s.custody.state with
  | .blank, .blank =>
    let t : State := { s.updCustody fun u => { u with state := .mounted } with copy := some r }
    let t := t.raiseGeneration.postBoth .mediumMounted
    t.cancelAll fun e => !(e.generation == t.custody.generation)
  | .blank, _ => s
  | .mounted, _ => { s with copy := some r }

/-- The commit of an operation that ended DONE (R132, R135, R136): the record written is what the record buffer
holds. -/
def State.commit (s : State) (m : Maint) : State :=
  let r := decodeRecord (s.bufferBytes recordBuffer)
  match m.kind with
  | .formatTrack => s
  | .writeMediaRecord => s.commitRecord m.starting r
  | .mapSpare => { s with copy := some r }

/-- The outcome that the maintenance record keeps: a MAP SPARE that is DONE carries its entry, a WRITE MEDIA RECORD the
write count it wrote (R129, R167). -/
def State.maintOutcome (s : State) (m : Maint) : DriveOutcome → MaintOutcome
  | .failed c => .failed c
  | .done =>
    match m.kind with
    | .formatTrack => .done 0
    | .mapSpare => .done m.spare
    | .writeMediaRecord => .done (decodeRecord (s.bufferBytes recordBuffer)).writeCount

/-- The end of port `p`'s running operation (R129): commit, outcome, notice; with the discard mark the record is
removed and no notice posted. The drain judgement is the step DRAIN_COMPLETE (log 5). -/
def State.maintenanceEnd (s : State) (p : Port) (o : DriveOutcome) : State :=
  match (s.ctx p).maint with
  | none => s
  | some m =>
    let t := match o with
      | .done => s.commit m
      | .failed _ => s
    if m.discard then t.updCtx p fun c => { c with maint := none }
    else
      let n : Maint := { m with
        outcome := some (t.maintOutcome m o), endTime := t.time, endGeneration := t.custody.generation }
      t.updCtx p fun c => ({ c with maint := some n }).placeMaint

/-- The drive-owned request ends: it becomes absent, its slot returns to EMPTY and its requester is told (R92). -/
def State.reportDrive (s : State) (o : DriveOutcome) : State :=
  match s.driveReq with
  | none => s
  | some r =>
    let t : State := { s with driveReq := none }
    let t := t.mapSlots fun x => if x.owner == some .drive then Slot.blank else x
    match r.requester with
    | .custody => t.recordReadJudgement o
    | .maintenance p => t.maintenanceEnd p o

/-! ### Failure of a session (R87, R88, R89) -/

/-- The slot of an entry that carries the discard mark. -/
def State.discardedSlot (s : State) (x : Slot) : Bool :=
  Port.both.any fun p => (s.ctx p).queue.any fun e => e.discard && x.heldBy p e.tag

/-- What a failure of the session makes of a slot: a non-final one becomes FAILED, with `activeCause` for the ACTIVE
one and `cause` for the others; that of a discard-marked entry returns to EMPTY (R90). -/
def State.failSlot (s : State) (cause activeCause : Cause) (x : Slot) : Slot :=
  if !x.nonFinal then x
  else if s.discardedSlot x then Slot.blank
  else { x with state := .failed, cause := some (if x.state == .active then activeCause else cause) }

/-- An IN_SESSION entry of a failed session completes (R90): CANCELLED if it was being cancelled, by its slots if it
has any, else by the session's cause. A discard-marked one waits for its removal. -/
def State.failEntry (s : State) (p : Port) (e : Entry) (cause : Cause) : State :=
  if e.discard then s
  else if e.cancelling then (s.emptySlots p e.tag).completeEntry p e.tag (.cancelled (s.doneSlots p e.tag))
  else if e.resolved.isSome then (s.emptySlots p e.tag).completeEntry p e.tag (s.outcomeOf e)
  else s.completeEntry p e.tag (e.slotlessFailure cause)

/-- Every IN_SESSION entry of a failed session completes, A's in queue order and then B's (log 16). -/
def State.failEntries (s : State) (cause : Cause) : State :=
  Port.both.foldl
    (fun u p => ((u.ctx p).queue.filter fun e => e.state == .inSession).foldl (fun v e => v.failEntry p e cause) u) s

/-- The cause with which a failed session ends its drive-owned request: that of its slot (R92). -/
def State.driveCause (s : State) (cause activeCause : Cause) : Cause :=
  if s.slots.any fun x => x.owner == some .drive && x.state == .active then activeCause else cause

/-- A session fails (R87 to R89): the gate drops, the operation ends, the non-final slots fail, the requests complete,
the drive-owned request is reported, a waiting target is withdrawn, and the close is judged. -/
def State.failSession (s : State) (cause activeCause : Cause) : State :=
  match s.session with
  | none => s
  | some x =>
    let t := s.dropGate
    let t : State := { t with seq := { t.seq with op := none, pass := none } }
    let t := t.updSession fun x => { x with failed := true, passDue := false }
    let t := t.mapSlots (t.failSlot cause activeCause)
    let t := t.failEntries cause
    let t := if x.owner == .drive then t.reportDrive (.failed (s.driveCause cause activeCause)) else t
    let t := if t.pos.waitingTarget.isSome then t.dropWaiting.updSession fun x => { x with seekOutstanding := false } else t
    t.closeJudgement

/-- A drive-owned request that is held while no session is open for it ends FAILED (R92). -/
def State.failWaitingRequest (s : State) (cause : Cause) : State := s.reportDrive (.failed cause)

/-! ### The end of a sector operation -/

/-- The result of a sector operation (R81). -/
inductive OpResult where
  | done
  | mismatch
  | failed (cause : Cause)
  deriving DecidableEq, Repr

/-- A failed attempt of a slot that may be retried (R83). -/
def Slot.fail (x : Slot) (c : Cause) : Slot :=
  if x.retries = 0 then { x with state := .failed, cause := some c }
  else { x with state := .armed, retries := x.retries - 1, cause := some c }

/-- A track mismatch (R86, R87): the first one suspends the session for POSITION, is reported to the positioner and
asks for a reseek; the second fails the session. -/
def State.mismatchAct (s : State) : State :=
  match s.session with
  | none => s.setUncertain
  | some x =>
    if x.mismatches = 0 then
      let t := s.updSession fun x => { x with mismatches := 1, positionSuspended := true, seekOutstanding := true }
      t.setUncertain.seekRequest x.track
    else s.setUncertain.failSession .position .position

/-- A first mismatch re-arms the slot, its retries and cause unchanged (R86); a second leaves it to the failure (R87). -/
def State.mismatchRearm (s : State) (k : Nat) : State :=
  match s.session with
  | none => s
  | some x => if x.mismatches = 0 then s.setSlot k { (s.slot k) with state := .armed } else s

/-- The completion of a request whose slots are all final, and the close judgement (R90, R91). -/
def State.judgeCompletion (s : State) (p : Port) (tag : Byte) : State :=
  if s.hasOpenSlot p tag then s
  else match s.entry? p tag with
    | none => s
    | some e => ((s.emptySlots p tag).completeEntry p tag (s.outcomeOf e)).closeJudgement

/-- The end of an operation for a drive-owned slot (R92). -/
def State.endDriveOp (s : State) (k : Nat) : OpResult → State
  | .done => (s.reportDrive .done).closeJudgement
  | .mismatch => (s.mismatchRearm k).mismatchAct
  | .failed c =>
    let t := s.setSlot k ((s.slot k).fail c)
    if (s.slot k).retries = 0 then (t.reportDrive (.failed c)).closeJudgement else t

/-- The end of an operation for an entry that is being cancelled (R90): no retry; it completes CANCELLED. A track
mismatch leaves its slot EMPTY and still acts on the session; it acts before the joining and close judgement of the
completion, an order that the manual leaves open (log 32). -/
def State.endCancelledOp (s : State) (p : Port) (tag : Byte) (k : Nat) (r : OpResult) : State :=
  let t := match r with
    | .done => s.setSlot k { (s.slot k) with state := .done }
    | .mismatch => s.setSlot k Slot.blank
    | .failed c => s.setSlot k { (s.slot k) with state := .failed, cause := some c }
  let t := (t.emptySlots p tag).completeEntry p tag (.cancelled (t.doneSlots p tag))
  match r with
  | .mismatch => t.mismatchAct.closeJudgement
  | _ => t.closeJudgement

/-- The end of an operation for an entry with the discard mark (R90): its slot returns to EMPTY by any result. The
removal is the step DISCARDED_ENTRY_REMOVAL (log 5). -/
def State.endDiscardedOp (s : State) (k : Nat) (r : OpResult) : State :=
  let t := s.setSlot k Slot.blank
  match r with
  | .mismatch => t.mismatchAct
  | _ => t

/-- The end of an operation for a request that is being served (R83, R86, R90). -/
def State.endServedOp (s : State) (p : Port) (tag : Byte) (k : Nat) : OpResult → State
  | .done => (s.setSlot k { (s.slot k) with state := .done }).judgeCompletion p tag
  | .mismatch => (s.mismatchRearm k).mismatchAct
  | .failed c => (s.setSlot k ((s.slot k).fail c)).judgeCompletion p tag

/-- The operation in flight ends with a result, which the Session Controller acts on (R81, R83, R86, R90). The gate is
off from then on (R82). -/
def State.endOperation (s : State) (r : OpResult) : State :=
  match s.seq.op with
  | none => s
  | some o =>
    let t := s.dropGate
    let t : State := { t with seq := { t.seq with op := none } }
    match (t.slot o.sector).owner, (t.slot o.sector).tag with
    | some (.port p), some tag =>
      match t.entry? p tag with
      | none => t.setSlot o.sector Slot.blank
      | some e =>
        if e.discard then t.endDiscardedOp o.sector r
        else if e.cancelling then t.endCancelledOp p tag o.sector r
        else t.endServedOp p tag o.sector r
    | some .drive, _ => t.endDriveOp o.sector r
    | _, _ => t

/-! ### The format pass (R9, R93) -/

/-- How long a sector operation or a format sector needs (R32, R93). -/
def operationTime : Nat := 950

/-- The pass fails (R93). -/
def State.failPass (s : State) (c : Cause) : State :=
  let t := s.dropGate
  let t : State := { t with seq := { t.seq with pass := none } }
  (t.reportDrive (.failed c)).closeJudgement

/-- The pass succeeds (R93). -/
def State.endPass (s : State) : State :=
  let t : State := { s with seq := { s.seq with pass := none, gate := false } }
  (t.reportDrive .done).closeJudgement

/-- A formatted sector (R9): the header, 512 bytes of 00h with their check, and the three gaps filled with 00h. -/
def formattedSector (track head k : Nat) : SectorImage :=
  ⟨.recorded (headerBytes track head k), .recorded (dataFieldBytes (List.replicate 512 0)),
    ⟨.filled 0, .filled 0, .filled 0⟩⟩

/-- The sector whose window ends is recorded, the gate being on (R9, R82). The header holds the session's position and
head. -/
def State.recordFormatted (s : State) : State :=
  match s.session, s.seq.current with
  | some x, some k => if s.seq.gate then s.setImage x.head k (formattedSector x.track x.head k) else s
  | _, _ => s

/-- A window ends at a sector start or an index (R32): an operation still in flight fails TIMING; the sector of a
format pass is recorded, or the pass fails TIMING when the window was too short (R93). -/
def State.windowEnd (s : State) : State :=
  match s.seq.op, s.seq.pass with
  | some _, _ => s.endOperation (.failed .timing)
  | none, some f => if elapsed f.sectorStart s.time < operationTime then s.failPass .timing else s.recordFormatted
  | none, none => s

/-- The end of a pass at the index event (R93): sector 19 must have been recorded. The sector whose window has just
ended is recorded whole, so the gate goes off between sectors. -/
def State.passAtIndex (s : State) : State :=
  if s.seq.pass.isNone then s
  else if s.seq.current = some 19 then s.endPass
  else ({ s with seq := { s.seq with gate := false } } : State).failPass .timing

/-! ### A sector start (R31, R80) -/

/-- The sector operation of a transfer (R81). -/
def XferOp.kind : XferOp → OpKind
  | .read => .read
  | .write => .write
  | .verify => .verify

/-- The operation kind of a slot's owner (R81). -/
def State.opKindOf (s : State) (x : Slot) : OpKind :=
  match x.owner, x.tag with
  | some (.port p), some tag =>
    match s.entry? p tag with
    | some e => e.op.kind
    | none => .verify
  | _, _ =>
    match s.driveReq with
    | some r => if r.kind = .recordWrite then .recordWrite else .recordRead
    | none => .recordRead

/-- The buffer of sector `k` for a slot's owner: that of its position in the request, or the record buffer (R56, R60,
R92). -/
def State.opBufferOf (s : State) (x : Slot) (k : Nat) : Nat :=
  match x.owner, x.tag with
  | some (.port p), some tag =>
    match s.entry? p tag with
    | some e => e.buffers.getD (requestPosition (e.resolved.getD 0) k) recordBuffer
    | none => recordBuffer
  | _, _ => recordBuffer

/-- The session serves slots now (R80). -/
def Session.serves (x : Session) : Bool := x.phase == .serving && !x.suspended && !x.failed

/-- The start of sector `k` for the sequencer and the slots (R33, R80, R81): the current sector; DEFERRED becomes
ARMED; ARMED becomes ACTIVE in a session that serves. A format pass goes on to the sector (R93). -/
def State.sectorStart (s : State) (k : Nat) : State :=
  let t : State := { s with
    seq := { s.seq with current := some k, pass := s.seq.pass.map fun _ => ⟨s.time⟩ } }
  match t.session with
  | none => t
  | some x =>
    if !(x.phase == .serving) then t
    else match (t.slot k).state with
      | .deferred => t.setSlot k { (t.slot k) with state := .armed }
      | .armed =>
        if x.serves then
          let o : Operation := ⟨k, t.opKindOf (t.slot k), t.opBufferOf (t.slot k) k, t.time, false, false⟩
          let u : State := { t with seq := { t.seq with op := some o } }
          u.setSlot k { (t.slot k) with state := .active }
        else t
      | _ => t

/-! ### Speed loss (R22, R43, R84) -/

/-- The sequencer's and the session's part of a speed loss (R22, R84, R93). -/
def State.sessionSpeedLoss (s : State) : State :=
  let t := s.updSession fun x => { x with speedSuspended := true, passDue := false }
  if t.seq.pass.isSome then t.failPass .speed
  else if t.seq.op.isSome then t.endOperation (.failed (if t.seq.gate then .torn else .speed))
  else t

/-- The positioner's part of a speed loss: a load in progress is abandoned, and a recalibrate request so ended is
answered failed (R43, R55). -/
def State.loadSpeedLoss (s : State) : State :=
  if !(s.pos.state == .loading) then s
  else
    let t := s.abandonLoad
    if s.pos.request = some .recalibrate then
      (t.updPos fun x => { x with request := none }).custodyRecalFailed
    else t

/-- A speed loss (R22). -/
def State.speedLoss (s : State) : State :=
  let t := s.updSpindle fun x =>
    { x with state := .locking, badCount := 0, goodCount := 0, regainTimer := s.startTimer 3000000 }
  ((t.sessionSpeedLoss.loadSpeedLoss).raiseFlag .speedLost).postBoth .spindleSpeedLost

/-- Entering AT_SPEED (R21). The blocks that act on its report do so by their own steps (log 5). -/
def State.enterAtSpeed (s : State) : State :=
  { s.updSpindle fun x =>
      { x with state := .atSpeed, goodCount := 0, badCount := 0, lockTimer := none, regainTimer := none } with
    faultOutstanding := false }

/-! ### Spindle fault (R24, R54, R88) -/

/-- The session's part of a spindle fault, and that of a drive-owned request with no session (R88, R92). -/
def State.sessionSpindleFault (s : State) : State :=
  (s.failSession .speed .speed).failWaitingRequest .speed

/-- The positioner's part of a spindle fault (R54). -/
def State.posSpindleFault (s : State) : State :=
  match s.pos.state with
  | .unloaded => s.discardWaiting
  | .loading =>
    let t := (s.abandonLoad).updPos fun x => { x with waitingTarget := none, request := none }
    match s.pos.request with
    | some .recalibrate => t.custodyRecalFailed
    | some (.seek _) => t.sessionSeekAbandoned
    | none => t
  | .recalibrating => s.updPos fun x => { x with heldRetract := true }
  | .seeking => s.updPos fun x => { x with heldRetract := true }
  | .settling => s.updPos fun x => { x with heldRetract := true }
  | .onTrack => s.beginRetract
  | .retracting => s
  | .emergencyRetract => s

/-- The spindle brakes at once at a fault (R24; log 15 for an emergency retract). -/
def State.faultBrakesNow (s : State) : Bool :=
  s.spindle.state == .starting || s.pos.state == .unloaded || s.pos.state == .loading || s.pos.state == .retracting ||
    s.pos.state == .emergencyRetract

/-- A spindle fault (R24): the record, the condition, the notice and the reports; then the spindle brakes, or the fault
is pending. -/
def State.spindleFault (s : State) (c : SpindleCause) : State :=
  let t : State := { s.updSpindle fun x => { x.stopTimers with lastFault := some c, standbyStop := false } with
    faultOutstanding := true }
  let t := (t.raiseFlag .spindleFault).postBoth (.spindleFault c)
  let t := t.sessionSpindleFault
  let t := if s.faultBrakesNow then t.enterBraking
    else { t.updSpindle fun x =>
        { x with state := if x.state = .atSpeed then .locking else x.state, faultPending := true } with
      seq := { t.seq with current := none } }
  t.custodySpindleFault.posSpindleFault

/-! ### Recalibration failure (R51) -/

/-- The answer to the request that a failed recalibration ends: a seek fails its session with POSITION, a recalibrate
request is answered to Custody (R51, R87, R99). -/
def State.answerRecalFailed (s : State) (r : Option PosRequest) : State :=
  match r with
  | some (.seek _) => (s.updSession fun x => { x with seekOutstanding := false }).failSession .position .position
  | some .recalibrate => s.custodyRecalFailed
  | none => s

/-- The creep has ended with the sensor not found (R51): the condition, the notice, the retract and the answer. -/
def State.recalFailure (s : State) : State :=
  let t : State := { s with recalOutstanding := true }
  let t := (t.raiseFlag .recalFailed).postBoth .positionRecalFailed
  let t := (t.updPos fun x => { x with request := none }).beginRetract
  t.answerRecalFailed s.pos.request

/-- The answer to the request that a held retract ends (R41). -/
def State.answerAbandoned (s : State) (r : Option PosRequest) : State :=
  match r with
  | some (.seek _) => s.sessionSeekAbandoned
  | some .recalibrate => s.custodyRecalFailed
  | none => s

/-! ### What ends most steps -/

/-- What follows a change of the drive's state: the idle conditions are judged (R29), and the gate obeys its law
(R82). -/
def State.finish (s : State) : State := s.judgeIdle.dropGateByLaw

end Sys2Proof.Machine
end

