-- ==== Sys2Proof/Decode.lean ====
section
/-! DEFINITION. Command blocks as bytes (13.2), both ways, and the host's word decoder.

spec/opcode_table.json gives no row any bits, so `decodeTableWord` spells no command. What the spec does encode is
the eight-byte command block of a station: byte 0 the code, bytes 1 to 7 the tag and parameters (R156, 13.2). -/

namespace Sys2Proof

/-- The command that a word spells by the table's bits: none, since no row has bits. -/
def decodeTableWord (_nbits _w : Nat) : Option Instr := none

/-- The command codes of chapter 11, each section's "(..h)". -/
def commandCodes : List Byte :=
  [0x01, 0x02, 0x03, 0x04, 0x08, 0x09, 0x0A, 0x0B, 0x10, 0x11, 0x18, 0x19, 0x1A, 0x1B, 0x1C, 0x20,
   0x28, 0x29, 0x2A, 0x2B, 0x30, 0x31]

/-- Byte 0 of the block that delivers a station command; none for a step that no block delivers. -/
def commandCode : Instr → Option Byte
  | .status _ _ _ => some 0x01
  | .fetchNotice _ _ => some 0x02
  | .acknowledgeConditions _ _ => some 0x03
  | .acceptMedium _ _ => some 0x04
  | .reserve _ _ => some 0x08
  | .release _ _ => some 0x09
  | .lock _ _ => some 0x0A
  | .unlock _ _ => some 0x0B
  | .spinUp _ _ => some 0x10
  | .spinDown _ _ => some 0x11
  | .read _ _ => some 0x18
  | .write _ _ => some 0x19
  | .verify _ _ => some 0x1A
  | .fetchData _ _ => some 0x1B
  | .cancel _ _ => some 0x1C
  | .eject _ _ => some 0x20
  | .readMediaRecord _ _ => some 0x28
  | .writeMediaRecord _ _ => some 0x29
  | .mapSpare _ _ => some 0x2A
  | .formatTrack _ _ => some 0x2B
  | .setParameters _ _ => some 0x30
  | .readParameters _ _ => some 0x31
  | .unknownCommand _ code _ => some code
  | _ => none

/-- The port and bytes 1 to 7 of a station command's block. -/
def commandBlock : Instr → Option (Port × Block)
  | .status p blk _ => some (p, blk)
  | .fetchNotice p blk => some (p, blk)
  | .acknowledgeConditions p blk => some (p, blk)
  | .acceptMedium p blk => some (p, blk)
  | .reserve p blk => some (p, blk)
  | .release p blk => some (p, blk)
  | .lock p blk => some (p, blk)
  | .unlock p blk => some (p, blk)
  | .spinUp p blk => some (p, blk)
  | .spinDown p blk => some (p, blk)
  | .read p blk => some (p, blk)
  | .write p blk => some (p, blk)
  | .verify p blk => some (p, blk)
  | .fetchData p blk => some (p, blk)
  | .cancel p blk => some (p, blk)
  | .eject p blk => some (p, blk)
  | .readMediaRecord p blk => some (p, blk)
  | .writeMediaRecord p blk => some (p, blk)
  | .mapSpare p blk => some (p, blk)
  | .formatTrack p blk => some (p, blk)
  | .setParameters p blk => some (p, blk)
  | .readParameters p blk => some (p, blk)
  | .unknownCommand p _ blk => some (p, blk)
  | _ => none

/-- The eight bytes of a block, in the order in which they are sent (13.2). -/
def blockBytes (code : Byte) (blk : Block) : List Byte :=
  [code, blk.tag, blk.b2, blk.b3, blk.b4, blk.b5, blk.b6, blk.b7]

/-- The eight bytes that deliver a station command; none for a step that no block delivers. -/
def encodeBlock (i : Instr) : Option (List Byte) :=
  match commandCode i, commandBlock i with
  | some code, some (_, blk) => some (blockBytes code blk)
  | _, _ => none

/-- The row that a delivered code stands for (chapter 11); an unknown code is UNKNOWN_COMMAND (R159). `sensors` is
what STATUS reads. -/
def decodeCode (p : Port) (sensors : SensorReading) (code : Byte) (blk : Block) : Instr :=
  if code = 0x01 then .status p blk sensors
  else if code = 0x02 then .fetchNotice p blk
  else if code = 0x03 then .acknowledgeConditions p blk
  else if code = 0x04 then .acceptMedium p blk
  else if code = 0x08 then .reserve p blk
  else if code = 0x09 then .release p blk
  else if code = 0x0A then .lock p blk
  else if code = 0x0B then .unlock p blk
  else if code = 0x10 then .spinUp p blk
  else if code = 0x11 then .spinDown p blk
  else if code = 0x18 then .read p blk
  else if code = 0x19 then .write p blk
  else if code = 0x1A then .verify p blk
  else if code = 0x1B then .fetchData p blk
  else if code = 0x1C then .cancel p blk
  else if code = 0x20 then .eject p blk
  else if code = 0x28 then .readMediaRecord p blk
  else if code = 0x29 then .writeMediaRecord p blk
  else if code = 0x2A then .mapSpare p blk
  else if code = 0x2B then .formatTrack p blk
  else if code = 0x30 then .setParameters p blk
  else if code = 0x31 then .readParameters p blk
  else .unknownCommand p code blk

/-- The station command that eight bytes taken at port p deliver (R156, R159); none unless there are eight. -/
def decodeBlock (p : Port) (sensors : SensorReading) : List Byte → Option Instr
  | [code, tag, b2, b3, b4, b5, b6, b7] => some (decodeCode p sensors code ⟨tag, b2, b3, b4, b5, b6, b7⟩)
  | _ => none

end Sys2Proof
end

