-- ==== Sys2Proof/WellFormed.lean ====
section
/-! DEFINITION. Which operands an event of the spec can carry. A command that fails its check is refused as ill
formed (log 2). -/

namespace Sys2Proof

/-- A header field is seven bytes (R4). -/
def HeaderReading.wf : HeaderReading → Bool
  | .found bytes => bytes.length == 7
  | _ => true

/-- A data field is 512 bytes and two check bytes (R5). -/
def DataReading.wf : DataReading → Bool
  | .received bytes => bytes.length == 514
  | _ => true

/-- A recorded sector: fields of the sizes of R4 and R5, and at least one field or gap recorded. -/
def SectorImage.wf (i : SectorImage) : Bool :=
  (match i.header with | .recorded b => b.length == 7 | _ => true) &&
  (match i.data with | .recorded b => b.length == 514 | _ => true) &&
  (i != ⟨.blank, .blank, ⟨.blank, .blank, .blank⟩⟩)

/-- The sectors of a medium stand in strictly rising order above `low`, each on a formattable position (R2: 617
positions, two heads, twenty sectors). -/
def Medium.wfAbove : Option Nat → Medium → Bool
  | _, [] => true
  | low, (k, i) :: rest =>
    (match low with | none => true | some l => decide (l < k)) && decide (k < 617 * 2 * 20) && i.wf &&
      Medium.wfAbove (some k) rest

/-- The canonical form of a medium. -/
def Medium.wf (m : Medium) : Bool := Medium.wfAbove none m

/-- The operands are ones that an event of the spec can carry. -/
def Instr.wf : Instr → Bool
  | .unknownCommand _ code _ => !(commandCodes.contains code)
  | .sectorStartEvent k => decide (1 ≤ k) && decide (k ≤ 19)
  | .operationEndPoint header data => header.wf && data.wf
  | .dataFieldReached header => header.wf
  | .presentSensorActive cartridge => cartridge.wf
  | .writeDataPhaseComplete _ bytes => decide (1 ≤ bytes.length) && decide (bytes.length ≤ 4096)
  | .mediaRecordPhaseComplete _ bytes => decide (1 ≤ bytes.length) && decide (bytes.length ≤ 20)
  | .parameterPhaseComplete _ bytes => decide (1 ≤ bytes.length) && decide (bytes.length ≤ 40)
  | _ => true

end Sys2Proof
end

