-- ==== Sys2Proof/Machine/LinkOps.lean ====
section
/-! DEFINITION. The Station Link Units and the frame of the Command Decoder: taking blocks, composing responses, the
ends of phases (R155 to R160), and the acceptance of maintenance (R129 to R136). -/

namespace Sys2Proof.Machine

/-- The block, gap and stall timers all run 100,000 microseconds (R156, R157, R158). -/
def linkTime : Nat := 100000

/-- The link unit of a port. -/
def State.link (s : State) (p : Port) : Link := (s.ctx p).link

/-- The link returns to IDLE; a strobe left pending is then taken as the first byte of a new block (R156). -/
def Link.toIdle (l : Link) (now : Time) : Link :=
  match l.strobe with
  | none => .reset
  | some b => ⟨.receivingBlock, 1, 8, some ⟨now, linkTime⟩, [b], [], [], .plain, none⟩

/-- The link of port `p` returns to IDLE. -/
def State.linkToIdle (s : State) (p : Port) : State := s.updLink p fun l => l.toIdle s.time

/-- The link enters RESPONSE_OUT with a response and the outbound phase that may follow it (R157). -/
def Link.startResponse (l : Link) (now : Time) (response outPhase : List Byte) (work : LinkWork) : Link :=
  { l with
    state := .responseOut
    counter := 0
    expected := 8
    timer := some ⟨now, linkTime⟩
    received := []
    response := response
    outPhase := outPhase
    work := work }

/-- The link enters DATA_IN for a phase of `length` bytes (R158). -/
def Link.startPhase (l : Link) (now : Time) (length : Nat) (work : LinkWork) : Link :=
  { l with
    state := .dataIn
    counter := 0
    expected := length
    timer := some ⟨now, linkTime⟩
    received := []
    response := []
    outPhase := []
    work := work }

/-- An outcome other than TAKEN or DONE becomes the last refusal (R114, R159). -/
def PortContext.noteOutcome (c : PortContext) (o : Outcome) : PortContext :=
  if o = .done ∨ o = .taken then c else { c with lastRefusal := some o }

/-- A response is composed for port `p` (R157, R159, R160). -/
def State.respond (s : State) (p : Port) (code tag : Byte) (o : Outcome) (detail : List Byte) : State :=
  (s.updCtx p fun c => c.noteOutcome o).updLink p fun l =>
    l.startResponse s.time (responseBytes code tag o detail) [] .plain

/-- A response DONE with an outbound phase, whose length is its detail (R157, R160). -/
def State.respondWith (s : State) (p : Port) (code tag : Byte) (bytes : List Byte) (work : LinkWork) : State :=
  s.updLink p fun l =>
    l.startResponse s.time (responseBytes code tag .done (word16 bytes.length)) bytes work

/-- An inbound phase of `length` bytes begins at port `p` (R158). -/
def State.beginPhase (s : State) (p : Port) (length : Nat) (work : LinkWork) : State :=
  s.updLink p fun l => l.startPhase s.time length work

/-! ### Delivery of a block (R156, R159) -/

/-- The link can take the rest of this block: IDLE, or RECEIVING_BLOCK with its first bytes taken (log 3). -/
def State.delivers (s : State) (p : Port) (code : Byte) (blk : Block) : Bool :=
  (s.ctx p).linkPresent &&
    match (s.link p).state with
    | .idle => true
    | .receivingBlock =>
      decide ((s.link p).received.length < 8) && (s.link p).received.isPrefixOf (blockBytes code blk)
    | _ => false

/-- A delivered block restarts the holder's idle timer (R118, R159 step 1). -/
def State.restartLimit (s : State) (p : Port) : State :=
  match s.reservation with
  | none => s
  | some r => if r.holder = p then { s with reservation := some { r with timer := s.limitTimer r.limit } } else s

/-- The first check that fails gives the outcome (R159). -/
def firstFail : List (Bool × Outcome) → Option Outcome
  | [] => none
  | (fails, o) :: rest => if fails then some o else firstFail rest

/-- A command (R159): delivered, the checks in order, then its acceptance; a refused one has no other effect. A block
that the link cannot take now is no event (log 3). -/
def State.command (s : State) (p : Port) (code tag : Byte) (blk : Block) (checks : List (Bool × Outcome))
    (accept : State → State) : State :=
  if s.delivers p code blk then
    let t := s.restartLimit p
    match firstFail checks with
    | some o => t.respond p code tag o []
    | none => accept t
  else s

/-! ### The conditions of the checks (R159, R161) -/

/-- Custody is EMPTY or INSERTED. -/
def State.noMedium (s : State) : Bool := s.custody.state == .empty || s.custody.state == .inserted

/-- Custody is EMPTY, INSERTED or MOUNTING. -/
def State.noMountedMedium (s : State) : Bool := s.noMedium || s.custody.state == .mounting

/-- Custody is UNMOUNTING or RELEASING. -/
def State.leaving (s : State) : Bool := s.custody.state == .unmounting || s.custody.state == .releasing

/-- Custody is EJECT_PENDING, UNMOUNTING or RELEASING. -/
def State.ejecting (s : State) : Bool := s.custody.state == .ejectPending || s.leaving

/-- Custody is JAMMED. -/
def State.jammed (s : State) : Bool := s.custody.state == .jammed

/-- The generation gate fails (R126). -/
def State.staleGeneration (s : State) (p : Port) : Bool := !((s.ctx p).acknowledged == s.custody.generation)

/-- The medium was sampled PROTECTED (R97). -/
def State.writeProtected (s : State) : Bool := s.custody.protect == some .isProtected

/-- The drive has work or a session: BUSY for EJECT NOW (R104). -/
def State.ejectBusy (s : State) : Bool :=
  s.anyEntryIn .ready || s.anyEntryIn .inSession || s.session.isSome || s.anyMaintRunning

/-- BUSY for maintenance (R130). -/
def State.maintBusy (s : State) (p : Port) : Bool :=
  s.hasEntryIn p .ready || s.hasEntryIn p .inSession || s.session.isSome || s.anyMaintRunning || (s.ctx p).maint.isSome

/-! ### Transfers (R58, R59, R161) -/

/-- A field of a transfer is out of range (R58). -/
def transferBad (b : Block) (default : Nat) : Bool :=
  decide (599 < b.track) || decide (1 < b.head) || (firstSector b).isNone || decide (b.count = 0) ||
    decide (8 < b.count) || (retryLimit b default).isNone

/-- NO_BUFFERS for a READ or WRITE of `n` sectors (R59). -/
def State.lacksBuffers (s : State) (p : Port) (n : Nat) : Bool :=
  decide (s.freeBuffers < n) || decide (12 < s.heldBuffers p + n)

/-- The checks of READ, WRITE and VERIFY in the decoder's order (R58, R159). -/
def State.transferChecks (s : State) (p : Port) (op : XferOp) (b : Block) : List (Bool × Outcome) :=
  [(transferBad b s.params.defaultRetry, .badParameter),
    ((s.entry? p b.tag).isSome, .tagInUse),
    (!s.supplyHigh, .supplyLow),
    (s.jammed, .jammed),
    (s.noMountedMedium, .noMedium),
    (s.staleGeneration p, .mediaChanged),
    (s.ejecting, .ejectPending),
    (if op = .write then s.otherHolds p else s.holdsIn p.other .exclusive, .reserved),
    (op == .write && s.writeProtected, .writeProtected),
    (decide (8 ≤ (s.ctx p).queue.length), .queueFull),
    (!(op == .verify) && s.lacksBuffers p b.count, .noBuffers)]

/-- The entry that an accepted transfer creates (R56, R58). -/
def State.newEntry (s : State) (op : XferOp) (b : Block) : Entry where
  tag := b.tag
  op := op
  track := b.track
  head := b.head
  first := (firstSector b).getD .earliest
  count := b.count
  retry := (retryLimit b s.params.defaultRetry).getD 0
  buffers := if op = .verify then [] else s.takeFree b.count
  generation := s.custody.generation
  state := if op = .write then .receiving else .ready
  position := none
  resolved := none
  discard := false
  cancelling := false
  outcome := none
  completionTime := none
  placement := none
  dataFetched := false

/-- Acceptance of a transfer (R58, R59): the entry at the tail, its buffers, the standby flag cleared (R28). -/
def State.acceptTransfer (s : State) (p : Port) (op : XferOp) (b : Block) : State :=
  let e := s.newEntry op b
  let t := (s.assignBuffers e.buffers (some p)).updCtx p fun c => { c with queue := c.queue ++ [e] }
  t.updSpindle fun x => { x with standbyFlag := false }

/-! ### Maintenance (R129 to R136) -/

/-- The checks that the three maintenance commands share, before BLANK_MEDIUM (R130). -/
def State.maintChecks (s : State) (p : Port) (bad : Bool) : List (Bool × Outcome) :=
  [(bad, .badParameter),
    (!s.supplyHigh, .supplyLow),
    (s.jammed, .jammed),
    (s.noMountedMedium, .noMedium),
    (s.staleGeneration p, .mediaChanged),
    (s.ejecting, .ejectPending),
    (s.otherHolds p, .reserved),
    (!(s.holdsIn p .exclusive), .notHolder),
    (s.writeProtected, .writeProtected)]

/-- The maintenance record at acceptance, and the spin request (R129, R130). -/
def State.acceptMaint (s : State) (p : Port) (k : MaintKind) (tag : Byte) (spare : Nat) : State :=
  let m : Maint :=
    { tag := tag
      kind := k
      outcome := none
      discard := false
      starting := if s.custody.state = .blank then .blank else .mounted
      spare := spare
      endTime := 0
      endGeneration := 0 }
  (s.updCtx p fun c => { c with maint := some m }).spinRequest

/-- Hand on a record write with the record buffer built (R131, R134, R136). -/
def State.handOnRecord (s : State) (p : Port) (r : MediaRecord) : State :=
  { s.storeBuffer recordBuffer 0 r.bytes with driveReq := some ⟨.recordWrite, 0, 0, .maintenance p⟩ }

/-- The record that a WRITE MEDIA RECORD builds from its 20 bytes (R134): the label, then the serial. -/
def builtRecord (copy : Option MediaRecord) (starting : StartingCustody) (bytes : List Byte) : MediaRecord :=
  let label := bytes.take 16
  let serial := (bytes.drop 16).take 4
  match starting, copy with
  | .mounted, some r => { r with serial := serial, label := label, writeCount := nextCount r.writeCount }
  | _, _ => freshRecord serial label

/-! ### The ends of phases (R61, R133, R139, R157, R158) -/

/-- An inbound phase is abandoned: its command is undone (R61, R133, R139). -/
def State.undoPhase (s : State) (p : Port) : State :=
  match (s.link p).work with
  | .writeData tag => s.removeEntry p tag
  | .mediaRecord _ => s.updCtx p fun c => { c with maint := none }
  | _ => s

/-- The code and tag of the command that an inbound phase belongs to (13.2). -/
def LinkWork.codeTag : LinkWork → Byte × Byte
  | .writeData tag => (0x19, tag)
  | .mediaRecord tag => (0x29, tag)
  | _ => (0x30, 0)

/-- An inbound phase ends by its gap timer or the supply edge: the command is undone and DATA_TIMEOUT is sent (R158). -/
def State.timeOutPhase (s : State) (p : Port) : State :=
  (s.undoPhase p).respond p (s.link p).work.codeTag.1 (s.link p).work.codeTag.2 .dataTimeout []

/-- Store bytes of a WRITE's phase from index `i` on: byte `i` goes to the entry's buffer `i / 512` at `i % 512` (R61). -/
def State.storePhase (s : State) (bufs : List Nat) : Nat → List Byte → State
  | _, [] => s
  | i, b :: rest => (s.setRamByte (512 * bufs.getD (i / 512) recordBuffer + i % 512) b).storePhase bufs (i + 1) rest

/-- The port's phase of a kind ends with these bytes: the link is present, and they are the rest of the phase. -/
def State.phaseEndsWith (s : State) (p : Port) (bytes : List Byte) : Bool :=
  (s.ctx p).linkPresent && (s.link p).state == .dataIn &&
    decide ((s.link p).counter + bytes.length = (s.link p).expected)

/-- FETCH DATA completes (R64): the buffers return to FREE; a NOTICED entry is removed, another has its data marked
fetched. -/
def State.fetchDataDone (s : State) (p : Port) (tag : Byte) : State :=
  match s.entry? p tag with
  | none => s
  | some e =>
    if e.state = .noticed then s.removeEntry p tag
    else (s.assignBuffers e.buffers none).updEntry p tag fun e => { e with buffers := [], dataFetched := true }

/-- What the end of the response or phase being sent completes (R64, R150). -/
def State.completeOutbound (s : State) (p : Port) : State :=
  match (s.link p).state, (s.link p).work with
  | .responseOut, .notice => s.updCtx p fun c => c.takeNotice
  | .dataOut, .fetchData tag => s.fetchDataDone p tag
  | _, _ => s

/-- The link after the last byte of a response or phase: DATA_OUT when a phase follows the response, else IDLE
(R157). -/
def Link.afterOutbound (l : Link) (now : Time) : Link :=
  if l.state = .responseOut ∧ l.outPhase ≠ [] then
    { l with state := .dataOut, counter := 0, expected := l.outPhase.length, timer := some ⟨now, linkTime⟩ }
  else l.toIdle now

/-- The last byte of the response or phase of port `p` is taken (R157). -/
def State.endOutbound (s : State) (p : Port) : State :=
  (s.completeOutbound p).updLink p fun l => l.afterOutbound s.time

/-- The link of port `p` is sending. -/
def State.sending (s : State) (p : Port) : Bool :=
  (s.ctx p).linkPresent && ((s.link p).state == .responseOut || (s.link p).state == .dataOut)

end Sys2Proof.Machine
end

