-- ==== Sys2Proof/Machine/Commands.lean ====
section
/-! DEFINITION. The meanings of the station commands (chapter 11), one per row. -/

namespace Sys2Proof.Machine

/-- UNKNOWN_COMMAND (R159): refused UNKNOWN, tag 0. -/
def execUnknownCommand (p : Port) (code : Byte) (blk : Block) (s : State) : Host.Outcome State Fault Refusal :=
  if (Instr.unknownCommand p code blk).wf then
    .next (s.command p code 0 blk [(true, .unknown)] id)
  else .refused .illFormed

/-- STATUS (R162): DONE, and the status record of the moment. The latch and write-protect sensors read as given. -/
def execStatus (p : Port) (blk : Block) (sensors : SensorReading) (s : State) : Host.Outcome State Fault Refusal :=
  .next (s.command p 0x01 0 blk [] fun t =>
    let u : State := { t with pins := { t.pins with latch := sensors.latched, writeProtect := sensors.writeProtect } }
    u.respondWith p 0x01 0 (u.statusRecord p) .plain)

/-- The response of FETCH NOTICE: the head record, or a record marked none (R150, R160). -/
def State.answerNotice (s : State) (p : Port) : State :=
  match (s.ctx p).notices with
  | [] => s.updLink p fun l => l.startResponse s.time noticeNone [] .plain
  | n :: _ => s.updLink p fun l => l.startResponse s.time n.bytes [] .notice

/-- FETCH NOTICE (R150). -/
def execFetchNotice (p : Port) (blk : Block) (s : State) : Host.Outcome State Fault Refusal :=
  .next (s.command p 0x02 0 blk [] fun t => t.answerNotice p)

/-- ACKNOWLEDGE CONDITIONS (R152). -/
def execAcknowledgeConditions (p : Port) (blk : Block) (s : State) : Host.Outcome State Fault Refusal :=
  .next (s.command p 0x03 0 blk [] fun t =>
    let c := (t.ctx p).conditions.acknowledge t.persisting blk.b2
    (t.updCtx p fun x => { x with conditions := c }).respond p 0x03 0 .done [byte c.code])

/-- ACCEPT MEDIUM (R125). -/
def execAcceptMedium (p : Port) (blk : Block) (s : State) : Host.Outcome State Fault Refusal :=
  .next (s.command p 0x04 0 blk
    [(!s.supplyHigh, .supplyLow), (s.jammed, .jammed), (s.noMountedMedium, .noMedium), (s.ejecting, .ejectPending)]
    fun t =>
      (t.updCtx p fun c => { c with acknowledged := t.custody.generation }).respond p 0x04 0 .done
        [byte t.custody.generation])

/-- The reservation record after an accepted RESERVE, with the notice to the other port and the report of a change
(R116, R117). -/
def State.takeReservation (s : State) (p : Port) (m : ReserveMode) (limit : Nat) : State :=
  let changed := !(s.holdsIn p m)
  let t : State := { s with reservation := some ⟨p, m, limit, s.limitTimer limit⟩ }
  if changed then (t.post p.other (.reservationTaken m)).reservationChanged else t

/-- RESERVE (R117, R118). -/
def execReserve (p : Port) (blk : Block) (s : State) : Host.Outcome State Fault Refusal :=
  .next (s.command p 0x08 0 blk
    [((reserveMode blk).isNone, .badParameter), (!s.supplyHigh, .supplyLow), (s.otherHolds p, .reserved)]
    fun t =>
      let m := (reserveMode blk).getD .write
      ((t.takeReservation p m blk.limit).respond p 0x08 0 .done [byte m.code]).finish)

/-- RELEASE (R119). -/
def execRelease (p : Port) (blk : Block) (s : State) : Host.Outcome State Fault Refusal :=
  .next (s.command p 0x09 0 blk [(!s.supplyHigh, .supplyLow), (!s.holds p, .notHolder)]
    fun t => ((t.freeReservation none).respond p 0x09 0 .done []).finish)

/-- LOCK (R123, R126). -/
def execLock (p : Port) (blk : Block) (s : State) : Host.Outcome State Fault Refusal :=
  .next (s.command p 0x0A 0 blk
    [(!s.supplyHigh, .supplyLow), (s.jammed, .jammed), (s.noMedium, .noMedium), (s.staleGeneration p, .mediaChanged),
      (s.ejecting, .ejectPending), (s.otherHolds p, .reserved)]
    fun t => (t.updCtx p fun c => { c with lockHeld := true }).respond p 0x0A 0 .done [])

/-- UNLOCK (R123). -/
def execUnlock (p : Port) (blk : Block) (s : State) : Host.Outcome State Fault Refusal :=
  .next (s.command p 0x0B 0 blk [] fun t =>
    (t.updCtx p fun c => { c with lockHeld := false }).respond p 0x0B 0 .done [])

/-- SPIN UP (R163). -/
def execSpinUp (p : Port) (blk : Block) (s : State) : Host.Outcome State Fault Refusal :=
  .next (s.command p 0x10 0 blk
    [(!s.supplyHigh, .supplyLow), (s.jammed, .jammed), (s.noMedium, .noMedium), (s.leaving, .ejectPending),
      (s.holdsIn p.other .exclusive, .reserved)]
    fun t =>
      ((t.updSpindle fun x => { x with standbyFlag := false }).spinRequest.respond p 0x10 0 .done []).finish)

/-- SPIN DOWN (R164). -/
def execSpinDown (p : Port) (blk : Block) (s : State) : Host.Outcome State Fault Refusal :=
  .next (s.command p 0x11 0 blk
    [(!s.supplyHigh, .supplyLow), (s.jammed, .jammed), (s.noMedium, .noMedium), (s.ejecting, .ejectPending),
      (s.otherHolds p, .reserved)]
    fun t => ((t.updSpindle fun x => { x with standbyFlag := true }).respond p 0x11 0 .done []).finish)

/-- READ (R58, R59, R161). -/
def execRead (p : Port) (blk : Block) (s : State) : Host.Outcome State Fault Refusal :=
  .next (s.command p 0x18 blk.tag blk (s.transferChecks p .read blk) fun t =>
    ((t.acceptTransfer p .read blk).entryReady p blk.tag |>.respond p 0x18 blk.tag .taken []).finish)

/-- WRITE (R58, R59, R61, R158, R161): its data phase begins. -/
def execWrite (p : Port) (blk : Block) (s : State) : Host.Outcome State Fault Refusal :=
  .next (s.command p 0x19 blk.tag blk (s.transferChecks p .write blk) fun t =>
    ((t.acceptTransfer p .write blk).beginPhase p (512 * blk.count) (.writeData blk.tag)).finish)

/-- VERIFY (R58, R161). -/
def execVerify (p : Port) (blk : Block) (s : State) : Host.Outcome State Fault Refusal :=
  .next (s.command p 0x1A blk.tag blk (s.transferChecks p .verify blk) fun t =>
    ((t.acceptTransfer p .verify blk).entryReady p blk.tag |>.respond p 0x1A blk.tag .taken []).finish)

/-- The entry has not completed (R56). -/
def Entry.unfinished (e : Entry) : Bool := e.state == .receiving || e.state == .ready || e.state == .inSession

/-- The entry is a READ that is DONE and whose data is still to be taken (R64). -/
def Entry.holdsData (e : Entry) : Bool := e.op == .read && e.outcome == some .done && !e.dataFetched

/-- FETCH DATA judged against the entry found by the tag (R64). -/
def State.answerFetchData (s : State) (p : Port) (tag : Byte) : State :=
  match s.entry? p tag with
  | none => s.respond p 0x1B tag .noSuchTag []
  | some e =>
    if e.op == .read && e.unfinished then s.respond p 0x1B tag .busy []
    else if e.holdsData then
      s.respondWith p 0x1B tag (e.buffers.flatMap s.bufferBytes) (.fetchData tag)
    else s.respond p 0x1B tag .noSuchTag []

/-- FETCH DATA (R64). -/
def execFetchData (p : Port) (blk : Block) (s : State) : Host.Outcome State Fault Refusal :=
  .next (s.command p 0x1B blk.tag blk [] fun t => t.answerFetchData p blk.tag)

/-- CANCEL judged against the entry found by the tag (R65). A RECEIVING entry is not found (R65; log 29). -/
def State.answerCancel (s : State) (p : Port) (tag : Byte) : State :=
  match s.entry? p tag with
  | none => s.respond p 0x1C tag .noSuchTag []
  | some e =>
    match e.state with
    | .receiving => s.respond p 0x1C tag .noSuchTag []
    | .ready => (s.removeEntry p tag).respond p 0x1C tag .done []
    | .inSession =>
      if e.discard then s.respond p 0x1C tag .noSuchTag []
      else (s.cancelEntry p tag).respond p 0x1C tag .taken []
    | .completeUnnoticed => s.respond p 0x1C tag .tooLate []
    | .noticed => s.respond p 0x1C tag .tooLate []

/-- CANCEL (R65). -/
def execCancel (p : Port) (blk : Block) (s : State) : Host.Outcome State Fault Refusal :=
  .next (s.command p 0x1C blk.tag blk [(!s.supplyHigh, .supplyLow)] fun t => (t.answerCancel p blk.tag).finish)

/-- The checks of EJECT; in JAMMED custody only the first two are made (R104). -/
def State.ejectChecks (s : State) (p : Port) (b : Block) : List (Bool × Outcome) :=
  [(!(b.mode == 1 || b.mode == 2), .badParameter), (!s.supplyHigh, .supplyLow)] ++
    if s.jammed then []
    else
      [(s.noMountedMedium, .noMedium), (s.ejecting, .ejectPending), (s.otherHolds p, .reserved),
        ((s.ctx p.other).lockHeld, .locked), (b.mode == 1 && s.ejectBusy, .busy)]

/-- An accepted EJECT: a new release attempt in JAMMED; else the issuer's lock is cleared and the cartridge leaves
(R104, R111). -/
def State.acceptEject (s : State) (p : Port) (b : Block) : State :=
  if s.jammed then s.newAttempt
  else
    let t := s.updCtx p fun c => { c with lockHeld := false }
    if b.mode = 1 then (t.updCustody fun u => { u with ejectCause := .station }).enterUnmounting
    else t.enterEjectPending .station

/-- EJECT (R104, R111). -/
def execEject (p : Port) (blk : Block) (s : State) : Host.Outcome State Fault Refusal :=
  .next (s.command p 0x20 0 blk (s.ejectChecks p blk) fun t =>
    ((t.acceptEject p blk).respond p 0x20 0 .taken [byte blk.mode]).finish)

/-- READ MEDIA RECORD (R165). -/
def execReadMediaRecord (p : Port) (blk : Block) (s : State) : Host.Outcome State Fault Refusal :=
  .next (s.command p 0x28 0 blk
    [(!s.supplyHigh, .supplyLow), (s.noMountedMedium, .noMedium), (s.copy.isNone, .blankMedium)]
    fun t => t.respondWith p 0x28 0 ((t.copy.map MediaRecord.bytes).getD []) .plain)

/-- WRITE MEDIA RECORD (R130, R133): its 20-byte phase begins. -/
def execWriteMediaRecord (p : Port) (blk : Block) (s : State) : Host.Outcome State Fault Refusal :=
  .next (s.command p 0x29 blk.tag blk (s.maintChecks p false ++ [(s.maintBusy p, .busy)]) fun t =>
    ((t.acceptMaint p .writeMediaRecord blk.tag 0).beginPhase p 20 (.mediaRecord blk.tag)).finish)

/-- MAP SPARE is refused NO_SPARE: the copy holds no FREE entry (R130). -/
def State.noSpare (s : State) : Bool := (s.copy.bind lowestFree).isNone

/-- The record write of an accepted MAP SPARE (R136). -/
def State.acceptMapSpare (s : State) (p : Port) (b : Block) : State :=
  match s.copy with
  | none => s
  | some r =>
    let k := (lowestFree r).getD 0
    (s.acceptMaint p .mapSpare b.tag k).handOnRecord p (mapSpareRecord r k b.track)

/-- MAP SPARE (R130, R136). -/
def execMapSpare (p : Port) (blk : Block) (s : State) : Host.Outcome State Fault Refusal :=
  .next (s.command p 0x2A blk.tag blk
    (s.maintChecks p (decide (599 < blk.track)) ++
      [(s.custody.state == .blank, .blankMedium), (s.maintBusy p, .busy), (s.noSpare, .noSpare)])
    fun t => ((t.acceptMapSpare p blk).respond p 0x2A blk.tag .taken []).finish)

/-- FORMAT TRACK (R130, R131, R132): a format pass is handed on. -/
def execFormatTrack (p : Port) (blk : Block) (s : State) : Host.Outcome State Fault Refusal :=
  .next (s.command p 0x2B blk.tag blk
    (s.maintChecks p (decide (616 < blk.track) || decide (1 < blk.head)) ++ [(s.maintBusy p, .busy)])
    fun t =>
      let u : State := { t.acceptMaint p .formatTrack blk.tag 0 with
        driveReq := some ⟨.formatPass, blk.track, blk.head, .maintenance p⟩ }
      (u.respond p 0x2B blk.tag .taken []).finish)

/-- SET PARAMETERS (R139): its 40-byte phase begins. -/
def execSetParameters (p : Port) (blk : Block) (s : State) : Host.Outcome State Fault Refusal :=
  .next (s.command p 0x30 0 blk
    [(!s.supplyHigh, .supplyLow), (s.otherHolds p, .reserved), (!(s.holdsIn p .exclusive), .notHolder)]
    fun t => t.beginPhase p 40 .parameters)

/-- READ PARAMETERS (R140). -/
def execReadParameters (p : Port) (blk : Block) (s : State) : Host.Outcome State Fault Refusal :=
  .next (s.command p 0x31 0 blk [(!s.supplyHigh, .supplyLow)] fun t =>
    t.respondWith p 0x31 0 t.params.bytes .plain)

end Sys2Proof.Machine
end

