-- ==== Sys2Proof/Machine/CustodySteps.lean ====
section
/-! DEFINITION. The meanings of the custody and panel steps (chapter 6) and of the reservation's idle timer (R118). -/

namespace Sys2Proof.Machine

/-! ### Insertion and latching (R96, R97) -/

/-- PRESENT_SENSOR_ACTIVE (R96): in EMPTY the cartridge is in the slot, and the debounce timer starts. -/
def execPresentSensorActive (cartridge : Medium) (s : State) : Host.Outcome State Fault Refusal :=
  if (Instr.presentSensorActive cartridge).wf then
    .next (if s.pins.present then s
    else
      let t : State := { s with pins := { s.pins with present := true } }
      if t.custody.state = .empty then
        { t.updCustody fun u => { u with state := .inserted, debounceTimer := s.startTimer 500000 } with
          medium := cartridge }
      else t)
  else .refused .illFormed

/-- The cartridge has been withdrawn before it was latched (R96, R97). Locks and a deferred eject: log 12, log 13. -/
def State.withdrawn (s : State) : State :=
  let t : State := { s with medium := [] }
  (t.updCustody fun u =>
    { u with state := .empty, step := none, debounceTimer := none, latchTimer := none, forcedRejection := none }).clearLocks

/-- PRESENT_SENSOR_INACTIVE (R96, R97, R110, R111, R112). In RELEASING and JAMMED it completes the release. -/
def execPresentSensorInactive (s : State) : Host.Outcome State Fault Refusal :=
  let t : State := { s with pins := { s.pins with present := false } }
  .next (match s.custody.state with
    | .inserted => t.withdrawn.finish
    | .mounting => if s.custody.step = some .latching then t.withdrawn.finish else t
    | .releasing => t.completeRelease.finish
    | .jammed => t.completeRelease.finish
    | _ => t)

/-- DEBOUNCE_TIMER_EXPIRY (R96, R97): MOUNTING at step LATCHING, with the latch pulse and the latch timer. -/
def execDebounceTimerExpiry (s : State) : Host.Outcome State Fault Refusal :=
  .next (if s.custody.state == .inserted && expired s.custody.debounceTimer s.time then
    (s.updCustody fun u =>
      { u with
        state := .mounting
        step := some .latching
        debounceTimer := none
        latchPulse := s.startTimer 80000
        latchTimer := s.startTimer 300000
        lastMount := none }).finish
  else s)

/-- The latch is confirmed (R97): latched, the sample, and step SPINNING, unless a forced rejection waits (R107). -/
def State.latchConfirmed (s : State) (writeProtect : Bool) : State :=
  let t := s.updCustody fun u =>
    { u with
      latched := true
      latchTimer := none
      protect := some (if writeProtect then .isProtected else .writable) }
  match s.custody.forcedRejection with
  | some r => t.rejectMount r
  | none => t.enterSpinning

/-- LATCH_SENSOR_LATCHED (R97), with the write-protect sensor as it reads then. The latch is confirmed at this event
only, not from a level that stood before step LATCHING (log 33). -/
def execLatchSensorLatched (writeProtect : Bool) (s : State) : Host.Outcome State Fault Refusal :=
  let t : State := { s with pins := { s.pins with latch := true, writeProtect := writeProtect } }
  .next (if s.custody.state == .mounting && s.custody.step == some .latching then (t.latchConfirmed writeProtect).finish
    else t)

/-- LATCH_TIMER_EXPIRY (R97, R103): rejected with reason LATCH. -/
def execLatchTimerExpiry (s : State) : Host.Outcome State Fault Refusal :=
  .next (if s.custody.state == .mounting && s.custody.step == some .latching && expired s.custody.latchTimer s.time then
    (s.rejectMount .latch).finish
  else s)

/-- LATCH_PULSE_END (R97). -/
def execLatchPulseEnd (s : State) : Host.Outcome State Fault Refusal :=
  .next (if expired s.custody.latchPulse s.time then s.updCustody fun u => { u with latchPulse := none } else s)

/-- Custody at step SPINNING finds the spindle AT_SPEED (R98), and the positioner where a recalibrate request can be
sent (R40). -/
def State.loadingDue (s : State) : Bool :=
  s.mountsAt .spinning && s.spindleReady && (s.pos.state == .unloaded || s.pos.state == .onTrack)

/-- MOUNT_STEP_LOADING (R98, R99). -/
def execMountStepLoading (s : State) : Host.Outcome State Fault Refusal :=
  .next (if s.loadingDue then
    ((s.updCustody fun u => { u with step := some .loading }).recalibrateRequest).finish
  else s)

/-! ### Leaving (R108 to R111) -/

/-- The drain of EJECT_PENDING is complete (R108). -/
def State.drainDue (s : State) : Bool := s.custody.state == .ejectPending && s.drained

/-- DRAIN_COMPLETE (R108, R109). -/
def execDrainComplete (s : State) : Host.Outcome State Fault Refusal :=
  .next (if s.drainDue then s.enterUnmounting.finish else s)

/-- The stop request of this unmount is still to be sent, and the positioner is UNLOADED (R27, R109). -/
def State.stopDue (s : State) : Bool :=
  s.custody.state == .unmounting && !s.custody.stopSent && s.pos.state == .unloaded

/-- UNMOUNT_STOP_REQUEST (R27, R109). -/
def execUnmountStopRequest (s : State) : Host.Outcome State Fault Refusal :=
  .next (if s.stopDue then ((s.updCustody fun u => { u with stopSent := true }).stopRequest).finish else s)

/-- The unmount has reached STOPPED (R109). -/
def State.releasingDue (s : State) : Bool :=
  s.custody.state == .unmounting && s.custody.stopSent && s.ejectLaw

/-- The first pulse of an attempt waits only for this step: the eject law holds and the supply is high (R110, R113). -/
def State.firstPulseDue (s : State) : Bool :=
  s.custody.state == .releasing && s.custody.attemptDue && s.ejectLaw && s.supplyHigh

/-- RELEASE_ATTEMPT_START (R109, R110, R111, R113): custody enters RELEASING at the STOPPED report; the first pulse is
given when the supply is high, and waits for the recovery otherwise. -/
def execReleaseAttemptStart (s : State) : Host.Outcome State Fault Refusal :=
  let t := if s.releasingDue then s.newAttempt else s
  .next (if t.firstPulseDue then t.ejectPulse else t)

/-- EJECT_PULSE_END (R110): in RELEASING the release timer starts. -/
def execEjectPulseEnd (s : State) : Host.Outcome State Fault Refusal :=
  .next (if expired s.custody.ejectPulse s.time then
    s.updCustody fun u =>
      { u with
        ejectPulse := none
        releaseTimer := if u.state = .releasing then s.startTimer 2000000 else u.releaseTimer }
  else s)

/-- JAMMED is entered (R111). -/
def State.enterJammed (s : State) : State :=
  (s.updCustody fun u => { u with state := .jammed, releaseTimer := none }).raiseFlag .ejectJammed

/-- RELEASE_TIMER_EXPIRY (R110, R111): the second pulse, which needs the supply high (R113; log 14), or JAMMED. -/
def execReleaseTimerExpiry (s : State) : Host.Outcome State Fault Refusal :=
  .next (if s.custody.state == .releasing && expired s.custody.releaseTimer s.time then
    let t := s.updCustody fun u => { u with releaseTimer := none }
    if 2 ≤ s.custody.jamCount then s.enterJammed
    else if s.supplyHigh && s.ejectLaw then t.ejectPulse else t
  else s)

/-! ### The panel (R105 to R107) -/

/-- BUTTON_DOWN (R105). -/
def execButtonDown (s : State) : Host.Outcome State Fault Refusal :=
  .next (if s.pins.button then s
  else
    let t : State := { s with pins := { s.pins with button := true } }
    t.updCustody fun u => { u with holdTimer := s.startTimer 5000000 })

/-- BUTTON_UP (R105, R106): a short press, if the hold timer still runs. -/
def execButtonUp (s : State) : Host.Outcome State Fault Refusal :=
  let t : State := { s with pins := { s.pins with button := false } }
  .next (if s.custody.holdTimer.isSome then
    ((t.updCustody fun u => { u with holdTimer := none }).shortPress).finish
  else t)

/-- HOLD_TIMER_EXPIRY (R105, R107): a long press. -/
def execHoldTimerExpiry (s : State) : Host.Outcome State Fault Refusal :=
  .next (if expired s.custody.holdTimer s.time then
    ((s.updCustody fun u => { u with holdTimer := none }).longPress).finish
  else s)

/-- ATTENTION_TIMER_EXPIRY (R106, R153). -/
def execAttentionTimerExpiry (s : State) : Host.Outcome State Fault Refusal :=
  .next (if expired s.custody.attentionTimer s.time then
    s.updCustody fun u => { u with attentionTimer := none }
  else s)

/-! ### The reservation's idle timer (R118) -/

/-- The idle timer of the reservation has expired. -/
def State.reservationExpiryDue (s : State) : Bool :=
  match s.reservation with
  | none => false
  | some r => expired r.timer s.time

/-- RESERVATION_IDLE_TIMER_EXPIRY (R118). -/
def execReservationIdleTimerExpiry (s : State) : Host.Outcome State Fault Refusal :=
  .next (if s.reservationExpiryDue then (s.freeReservation (some .reservationExpired)).finish else s)

end Sys2Proof.Machine
end

