-- ==== Sys2Proof/Machine/LinkSteps.lean ====
section
/-! DEFINITION. The meanings of the link steps (chapter 11): bytes, timers, and the ends of blocks, phases and
responses. -/

namespace Sys2Proof.Machine

/-- The unit takes an inbound byte that is not the last of its block or phase (R155, R156, R158). -/
def State.takeByte (s : State) (p : Port) (b : Byte) : State :=
  let l := s.link p
  match l.state with
  | .idle => s.updLink p fun l => { l with strobe := some b }.toIdle s.time
  | .receivingBlock =>
    if l.received.length < 7 then
      s.updLink p fun l => { l with received := l.received ++ [b], counter := l.counter + 1 }
    else s
  | .dataIn =>
    if l.counter + 1 < l.expected then
      let t := match l.work with
        | .writeData tag =>
          match s.entry? p tag with
          | some e => s.storePhase e.buffers l.counter [b]
          | none => s
        | _ => s.updLink p fun l => { l with received := l.received ++ [b] }
      t.updLink p fun l => { l with counter := l.counter + 1, timer := some ⟨s.time, linkTime⟩ }
    else s
  | .responseOut => s.updLink p fun l => { l with strobe := some b }
  | .dataOut => s.updLink p fun l => { l with strobe := some b }

/-- INBOUND_BYTE_TAKEN (R155, R156, R158). In RESPONSE_OUT and DATA_OUT the strobe stays unacknowledged. -/
def execInboundByteTaken (p : Port) (byte : Byte) (s : State) : Host.Outcome State Fault Refusal :=
  .next (if (s.ctx p).linkPresent then s.takeByte p byte else s)

/-- OUTBOUND_BYTE_TAKEN (R155, R157): a byte other than the last. -/
def execOutboundByteTaken (p : Port) (s : State) : Host.Outcome State Fault Refusal :=
  .next (if s.sending p && decide ((s.link p).counter + 1 < (s.link p).expected) then
    s.updLink p fun l => { l with counter := l.counter + 1, timer := some ⟨s.time, linkTime⟩ }
  else s)

/-- BLOCK_TIMER_EXPIRY (R156). -/
def execBlockTimerExpiry (p : Port) (s : State) : Host.Outcome State Fault Refusal :=
  .next (if (s.link p).state == .receivingBlock && expired (s.link p).timer s.time then s.linkToIdle p else s)

/-- DATA_PHASE_GAP_TIMEOUT (R61, R133, R139, R158). -/
def execDataPhaseGapTimeout (p : Port) (s : State) : Host.Outcome State Fault Refusal :=
  .next (if (s.link p).state == .dataIn && expired (s.link p).timer s.time then (s.timeOutPhase p).finish else s)

/-- STALL_TIMER_EXPIRY (R157): the response or phase is abandoned, and nothing it would have completed is done. -/
def execStallTimerExpiry (p : Port) (s : State) : Host.Outcome State Fault Refusal :=
  .next (if s.sending p && expired (s.link p).timer s.time then s.linkToIdle p else s)

/-- RESPONSE_COMPLETE (R157): the last byte of the response or outbound phase is taken, with what that completes. -/
def execResponseComplete (p : Port) (s : State) : Host.Outcome State Fault Refusal :=
  .next (if s.sending p then s.endOutbound p else s)

/-- NOTICE_RECORD_TAKEN (R150): the last byte of a response that carries a notice record is taken. -/
def execNoticeRecordTaken (p : Port) (s : State) : Host.Outcome State Fault Refusal :=
  .next (if s.sending p && (s.link p).state == .responseOut && (s.link p).work == .notice then s.endOutbound p else s)

/-- NOTICE_REFILL (R150): a free place of the queue is filled. -/
def execNoticeRefill (p : Port) (s : State) : Host.Outcome State Fault Refusal :=
  .next (s.updCtx p fun c => c.refill)

/-- The link work is a FETCH DATA. -/
def LinkWork.fetches : LinkWork → Bool
  | .fetchData _ => true
  | _ => false

/-- FETCH_DATA_COMPLETE (R64): the last byte of a FETCH DATA phase is taken. -/
def execFetchDataComplete (p : Port) (s : State) : Host.Outcome State Fault Refusal :=
  .next (if s.sending p && (s.link p).state == .dataOut && (s.link p).work.fetches then s.endOutbound p else s)

/-- An entry's data phase has ended whole (R61): READY, or complete CANCELLED. -/
def State.judgeReceived (s : State) (p : Port) (tag : Byte) (e : Entry) : State :=
  if s.mediumReady && e.generation == s.custody.generation then
    (s.updEntry p tag fun e => { e with state := .ready }).entryReady p tag
  else s.completeEntry p tag (.cancelled 0)

/-- The end of a WRITE's phase with its last bytes (R61). -/
def State.endWritePhase (s : State) (p : Port) (tag : Byte) (bytes : List Byte) : State :=
  match s.entry? p tag with
  | none => s.respond p 0x19 tag .taken []
  | some e => ((s.storePhase e.buffers (s.link p).counter bytes).judgeReceived p tag e).respond p 0x19 tag .taken []

/-- WRITE_DATA_PHASE_COMPLETE (R61, R158). `bytes` are the rest of the phase up to its last byte. -/
def execWriteDataPhaseComplete (p : Port) (bytes : List Byte) (s : State) : Host.Outcome State Fault Refusal :=
  if (Instr.writeDataPhaseComplete p bytes).wf then
    .next (match (s.link p).work with
      | .writeData tag => if s.phaseEndsWith p bytes then (s.endWritePhase p tag bytes).finish else s
      | _ => s)
  else .refused .illFormed

/-- The end of a WRITE MEDIA RECORD's phase with all its 20 bytes (R133, R134). -/
def State.endRecordPhase (s : State) (p : Port) (tag : Byte) (all : List Byte) : State :=
  match (s.ctx p).maint with
  | none => s.respond p 0x29 tag .taken []
  | some m => (s.handOnRecord p (builtRecord s.copy m.starting all)).respond p 0x29 tag .taken []

/-- MEDIA_RECORD_PHASE_COMPLETE (R133, R134). -/
def execMediaRecordPhaseComplete (p : Port) (bytes : List Byte) (s : State) : Host.Outcome State Fault Refusal :=
  if (Instr.mediaRecordPhaseComplete p bytes).wf then
    .next (match (s.link p).work with
      | .mediaRecord tag =>
        if s.phaseEndsWith p bytes then (s.endRecordPhase p tag ((s.link p).received ++ bytes)).finish else s
      | _ => s)
  else .refused .illFormed

/-- PARAMETER_PHASE_COMPLETE (R138, R139): the whole table is replaced in one step. -/
def execParameterPhaseComplete (p : Port) (bytes : List Byte) (s : State) : Host.Outcome State Fault Refusal :=
  if (Instr.parameterPhaseComplete p bytes).wf then
    .next (if s.phaseEndsWith p bytes && (s.link p).work == .parameters then
      (({ s with params := paramsOf ((s.link p).received ++ bytes) } : State).respond p 0x30 0 .done []).finish
    else s)
  else .refused .illFormed

end Sys2Proof.Machine
end

