-- ==== Sys2Proof/Machine/PositionerSteps.lean ====
section
/-! DEFINITION. The meanings of the positioner steps (chapter 3): the load, the steps of a move, the creep, the settle
and the held retract. -/

namespace Sys2Proof.Machine

/-- LOAD_TIMER_EXPIRY (R43): the heads are loaded and the recalibration begins; Custody sees RECALIBRATING (R99). -/
def execLoadTimerExpiry (s : State) : Host.Outcome State Fault Refusal :=
  .next (if s.pos.state == .loading && expired s.pos.loadTimer s.time then
    (((s.updPos fun x => { x with loadTimer := none, plan := x.plan.drop 1 }).beginRecalibration).custodyRecalSeen).finish
  else s)

/-- A waiting target can start (R39). -/
def State.waitingDue (s : State) : Bool :=
  s.pos.state == .unloaded && s.pos.waitingTarget.isSome && s.spindleReady

/-- WAITING_TARGET_START (R39): a load with recalibration and the seek in the stage plan. -/
def execWaitingTargetStart (s : State) : Host.Outcome State Fault Refusal :=
  .next (match s.pos.waitingTarget with
    | some p =>
      if s.waitingDue then
        ((s.updPos fun x => { x with waitingTarget := none }).beginLoad [.recalibrate, .seek p]).finish
      else s
    | none => s)

/-- The track-0 sensor as the test reads it (R2, R49). -/
def State.sensorActive (s : State) : TrackZeroReading → Bool
  | .asCarriage => s.carriage == 0
  | .level active => active

/-- The motion of a profiled move has ended (R44, R48, R50, R52, R53). -/
def State.motionEnd (s : State) (f : Profile) (sensor : TrackZeroReading) : State :=
  match f.kind with
  | .seek => s.enterSettling f.settle
  | .recalSeek => if s.sensorActive sensor then s.sensorFound else s.setUncertain.beginCreep
  | .retract => s.updPos fun x => { x with stepTimer := none, settleTimer := s.startTimer f.settle }
  | .emergency => s.unload
  | .creep => s

/-- The wait after a step of a profiled move has ended (R47). -/
def State.stepOn (s : State) (f : Profile) (sensor : TrackZeroReading) : State :=
  if f.stepIndex < f.distance then s.pulse f (f.interval (f.stepIndex + 1)) else s.motionEnd f sensor

/-- STEP_INTERVAL_EXPIRY (R47). -/
def execStepIntervalExpiry (sensor : TrackZeroReading) (s : State) : Host.Outcome State Fault Refusal :=
  .next (match s.pos.profile with
    | some f =>
      if !(f.kind == .creep) && expired s.pos.stepTimer s.time then (s.stepOn f sensor).finish else s
    | none => s)

/-- A sensor test of a creep (R49, R50, R51). -/
def State.creepOn (s : State) (f : Profile) (sensor : TrackZeroReading) : State :=
  if s.sensorActive sensor then s.sensorFound
  else if f.stepIndex < f.distance then s.pulse f (f.table.getD 0 0)
  else s.recalFailure

/-- CREEP_INTERVAL_EXPIRY (R49). -/
def execCreepIntervalExpiry (sensor : TrackZeroReading) (s : State) : Host.Outcome State Fault Refusal :=
  .next (match s.pos.profile with
    | some f => if f.kind == .creep && expired s.pos.stepTimer s.time then (s.creepOn f sensor).finish else s
    | none => s)

/-- The positioner enters ON_TRACK, and the report answers the outstanding request (R39, R40, R48, R50). -/
def State.enterOnTrack (s : State) : State :=
  let t := s.updPos fun x =>
    { x with state := .onTrack, profile := none, settleTimer := none, plan := [], request := none }
  match s.pos.request with
  | some (.seek _) => t.sessionSeekDone
  | some .recalibrate => t.custodyRecalDone
  | none => t

/-- The settle has ended (R48, R50, R52): ON_TRACK, unless a held retract waits (R41); or the unload of a retract. -/
def State.settleEnd (s : State) : State :=
  match s.pos.state with
  | .settling =>
    if s.pos.heldRetract then s.updPos fun x => { x with settleTimer := none } else s.enterOnTrack
  | .retracting => s.unload
  | _ => s

/-- SETTLE_TIMER_EXPIRY (R48). -/
def execSettleTimerExpiry (s : State) : Host.Outcome State Fault Refusal :=
  .next (if expired s.pos.settleTimer s.time then s.settleEnd.finish else s)

/-- HELD_RETRACT_START (R41): RETRACTING, and the outstanding request is answered as abandoned. -/
def execHeldRetractStart (s : State) : Host.Outcome State Fault Refusal :=
  .next (if s.stageEndedHeld then
    (((s.updPos fun x => { x with request := none }).beginRetract).answerAbandoned s.pos.request).finish
  else s)

end Sys2Proof.Machine
end

