-- ==== Sys2Proof/Machine/ResetSteps.lean ====
section
/-! DEFINITION. The meanings of power-on reset, port reset and the presence lines (R34, R67, R95, R114, R115, R127,
R141). -/

namespace Sys2Proof.Machine

/-- Custody after power-on reset, by the present and latch sensors (R95). -/
def State.resetCustody (s : State) (r : ResetReading) : State :=
  if r.present then
    if r.latched then
      (s.updCustody fun u =>
        { u with
          state := .mounting
          latched := true
          protect := some (if r.writeProtect then .isProtected else .writable) }).enterSpinning
    else s.updCustody fun u => { u with state := .inserted, debounceTimer := s.startTimer 500000 }
  else s

/-- POWER_ON_RESET (R34, R35, R95, R114, R141). The mechanism stays as it is: the carriage, and the cartridge if one is
present (log 8); so do the waiting commands. The gate goes off (R82), and a field that it was recording and had not
recorded whole is torn (R5), a sector of a format pass cut (R9). -/
def execPowerOnReset (r : ResetReading) (s : State) : Host.Outcome State Fault Refusal :=
  let t : State :=
    { State.reset with
      pins := ⟨r.present, r.latched, r.writeProtect, r.comparatorHigh, r.buttonDown⟩
      portA := .reset r.presenceA
      portB := .reset r.presenceB
      supply := ⟨if r.comparatorHigh then .high else .low, none⟩
      medium := if r.present then s.dropGate.medium else []
      carriage := s.carriage
      freeCount := s.dropGate.freeCount
      pending := s.pending }
  .next (t.resetCustody r)

/-! ### Port reset (R127) -/

/-- The effect of a port reset on one entry (R67). -/
def State.resetEntry (s : State) (p : Port) (e : Entry) : State :=
  if e.state == .inSession && s.hasActiveSlot p e.tag then
    (s.emptyOtherSlots p e.tag).updEntry p e.tag fun e => { e with discard := true }
  else (s.emptySlots p e.tag).removeEntry p e.tag

/-- The effect of a port reset on the port's queue (R67). -/
def State.resetQueue (s : State) (p : Port) : State := (s.ctx p).queue.foldl (fun u e => u.resetEntry p e) s

/-- The port has an IN_SESSION entry that the reset removes at once: a request of the session is removed (R91). -/
def State.resetRemoves (s : State) (p : Port) : Bool :=
  (s.ctx p).queue.any fun e => e.state == .inSession && !s.hasActiveSlot p e.tag

/-- The maintenance record after a port reset (R127, R133): removed in DONE_UNNOTICED and during its data phase, else
given the discard mark. -/
def PortContext.resetMaint (c : PortContext) : Option Maint :=
  match c.maint with
  | none => none
  | some m =>
    if m.outcome.isSome then none
    else match c.link.state, c.link.work with
      | .dataIn, .mediaRecord _ => none
      | _, _ => some { m with discard := true }

/-- The link unit after a port reset (R127, R155): IDLE, where a strobe left pending is taken as the first byte of a new
block (R156). With the link not present no byte is taken (R115), and the strobe is forgotten (log 17). -/
def PortContext.resetLink (c : PortContext) (now : Time) : Link :=
  if c.linkPresent then c.link.toIdle now else .reset

/-- The context after a port reset, apart from its queue (R127): the flags whose cause persists are set again while
the link is present. -/
def PortContext.portReset (c : PortContext) (now : Time) (persists : Conditions) : PortContext :=
  { c with
    acknowledged := 0
    lockHeld := false
    maint := c.resetMaint
    notices := []
    pendingSet := []
    held := []
    conditions := if c.linkPresent then persists else .clear
    lastRefusal := none
    link := c.resetLink now }

/-- A port reset (R127). The arbiter's choice and the drain judgement are their own steps (log 5). The reservation is
freed, and its change judged for joining, before the close judgement for the removed entries, which is made once: an
order that the manual leaves open (log 37). -/
def State.portReset (s : State) (p : Port) : State :=
  let t := s.resetQueue p
  let t := t.updCtx p fun c => c.portReset s.time s.persisting
  let t := t.freeIfHeldBy p
  if s.resetRemoves p then t.closeJudgement else t

/-- PORT_RESET (R127, R128). -/
def execPortReset (p : Port) (s : State) : Host.Outcome State Fault Refusal := .next (s.portReset p).finish

/-- PRESENCE_LINE_LOW (R115): link present is cleared, and a port reset starts. -/
def execPresenceLineLow (p : Port) (s : State) : Host.Outcome State Fault Refusal :=
  .next (if (s.ctx p).linkPresent then
    ((s.updCtx p fun c => { c with linkPresent := false }).portReset p).finish
  else s)

/-- PRESENCE_LINE_HIGH (R115): link present is set, and with it the flags whose cause persists. -/
def execPresenceLineHigh (p : Port) (s : State) : Host.Outcome State Fault Refusal :=
  .next (if (s.ctx p).linkPresent then s
  else s.updCtx p fun c => { c with linkPresent := true, conditions := c.conditions.join s.persisting })

end Sys2Proof.Machine
end

