-- ==== Sys2Proof/Config.lean ====
section
/-! DEFINITION. The free values: what the manual leaves open after a step that goes on.
None has a body, so nothing can be proved about its value. -/

namespace Sys2Proof.Config

/-- The bytes that a data field whose writing was cut off gives back (R5 states only that its check fails).
First argument: which cut. Second: the place in the field. Log 9. -/
opaque tornByte : Nat → Nat → Byte

/-- What the channel finds where a format pass was cut off in the middle of a sector: no header, or the seven
bytes of one (R9: it "may have a header or data field with a bad check"). Log 9. -/
opaque cutHeader : Nat → Option (List Byte)

/-- The cause code (1 to 10, taken modulo 10) with which a WRITE ends that reaches its end point without having
been recorded whole, for which the manual names no cause. Log 10. -/
opaque unrecordedCause : Nat → Nat

end Sys2Proof.Config
end

