-- ==== Sys2Proof/Machine/SessionSteps.lean ====
section
/-! DEFINITION. The meanings of the sequencer and session steps (chapter 5): sector starts, the data field, the end
point, the removal of a discarded entry, resumption, the head arbiter and the format pass. -/

namespace Sys2Proof.Machine

/-! ### Sector starts (R31) -/

/-- The start of sector `k` has come: the starts are raised, its predecessor was the last, and the elapsed time from X
has reached floor(k * P / 20) (R31). -/
def State.startDue (s : State) (k : Nat) : Bool :=
  s.raisesStarts && s.seq.current == some (k - 1) &&
    match s.spindle.lastIndex, s.spindle.period with
    | some x, some n => decide (sectorOffset k n ≤ elapsed x s.time)
    | _, _ => false

/-- SECTOR_START_EVENT for sector 1 to 19 (R31, R32, R80): the window before it ends, then the sector starts. A join that
the window's end brings about is armed from the old current sector; R78 leaves it open whether it sees the old one or
the new one (log 4). -/
def execSectorStartEvent (k : Nat) (s : State) : Host.Outcome State Fault Refusal :=
  if (Instr.sectorStartEvent k).wf then
    .next (if s.startDue k then ((s.windowEnd).sectorStart k).finish else s)
  else .refused .illFormed

/-! ### What the channel finds (R4, R5, R7, R8) -/

/-- The header bytes that the channel finds for the operation (R7). -/
def State.headerFound (s : State) (o : Operation) : HeaderReading → Option (List Byte)
  | .missing => none
  | .found bytes => some bytes
  | .asRecorded =>
    match (s.image s.sessionHead o.sector).header with
    | .blank => none
    | .recorded bytes => some bytes
    | .cut seed => Config.cutHeader seed

/-- The judgement of the header against the session's position and head and the operation's sector (R7). -/
def State.judgeFound (s : State) (o : Operation) (h : HeaderReading) : HeaderJudgement :=
  match s.session with
  | none => .failed .noHeader
  | some x => judgeHeader x.track x.head o.sector (s.headerFound o h)

/-- The data field that the channel receives: its 512 bytes, and whether the check is good (R5). A torn field, and a
field never recorded, give back free bytes that fail the check (log 9). -/
def State.dataFound (s : State) (o : Operation) : DataReading → List Byte × Bool
  | .received bytes => (bytes.take 512, checkGood (bytes.take 512) (bytes.drop 512))
  | .asRecorded =>
    match (s.image s.sessionHead o.sector).data with
    | .recorded bytes => (bytes.take 512, checkGood (bytes.take 512) (bytes.drop 512))
    | .torn seed => ((List.range 512).map (Config.tornByte seed), false)
    | .blank => ((List.range 512).map (Config.tornByte s.freeCount), false)

/-- DATA_FIELD_REACHED (R82): after a matching header, and for a WRITE or record write with the law holding, the gate
goes on. -/
def execDataFieldReached (header : HeaderReading) (s : State) : Host.Outcome State Fault Refusal :=
  if (Instr.dataFieldReached header).wf then
    .next (match s.seq.op with
      | none => s
      | some o =>
        if !o.headerMatched && s.judgeFound o header == .matching then
          { s with seq := { s.seq with
            op := some { o with headerMatched := true }
            gate := s.seq.gate || (o.kind.writes && s.gateLaw) } }
        else s)
  else .refused .illFormed

/-- CHECK_BYTES_RECORDED (R82): the field is recorded whole, and the gate goes off. -/
def execCheckBytesRecorded (s : State) : Host.Outcome State Fault Refusal :=
  .next (match s.seq.op with
    | none => s
    | some o =>
      if o.kind.writes && s.seq.gate then
        let t := s.setImage s.sessionHead o.sector
          { (s.image s.sessionHead o.sector) with data := .recorded (dataFieldBytes (s.bufferBytes o.buffer)) }
        { t with seq := { t.seq with op := some { o with recorded := true }, gate := false } }
      else s)

/-! ### The end point (R81) -/

/-- An operation that reads ends by its data field: the bytes go to its buffer, unless it verifies (R8, R60). -/
def State.endReading (s : State) (o : Operation) (d : DataReading) : State :=
  let f := s.dataFound o d
  let t := if o.kind = .verify then s else s.storeBuffer o.buffer 0 f.1
  t.countFree.endOperation (if f.2 then .done else .failed .dataCheck)

/-- An operation that writes ends DONE when its field was recorded whole, and else with a cause the manual does not
name (log 10). -/
def State.endWriting (s : State) (o : Operation) : State :=
  if o.recorded then s.endOperation .done
  else s.countFree.endOperation (.failed (causeOf (Config.unrecordedCause s.freeCount)))

/-- The operation ends by its own result (R81): the header's judgement, then the data field. -/
def State.endByResult (s : State) (o : Operation) (h : HeaderReading) (d : DataReading) : State :=
  match if o.headerMatched then .matching else s.judgeFound o h with
  | .trackMismatch => s.endOperation .mismatch
  | .failed c => s.endOperation (.failed c)
  | .matching => if o.kind.writes then s.endWriting o else s.endReading o d

/-- The 950 microsecond point of the operation in flight has come (R32). -/
def State.endPointDue (s : State) : Bool :=
  match s.seq.op with
  | none => false
  | some o => decide (operationTime ≤ elapsed o.start s.time)

/-- OPERATION_END_POINT (R32, R81). -/
def execOperationEndPoint (header : HeaderReading) (data : DataReading) (s : State) :
    Host.Outcome State Fault Refusal :=
  if (Instr.operationEndPoint header data).wf then
    .next (match s.seq.op with
      | none => s
      | some o => if s.endPointDue then (s.endByResult o header data).finish else s)
  else .refused .illFormed

/-! ### Discarded entries (R67, R90) -/

/-- The discard-marked entry of port `p` whose operation has ended. -/
def State.discarded? (s : State) (p : Port) : Option Entry :=
  (s.ctx p).queue.find? fun e => e.discard && e.state == .inSession && !s.hasActiveSlot p e.tag

/-- DISCARDED_ENTRY_REMOVAL (R67): the entry is removed with no outcome and no notice, and the close is judged. -/
def execDiscardedEntryRemoval (p : Port) (s : State) : Host.Outcome State Fault Refusal :=
  .next (match s.discarded? p with
    | none => s
    | some e => (((s.emptySlots p e.tag).removeEntry p e.tag).closeJudgement).finish)

/-- SESSION_RESUME (R85). -/
def execSessionResume (s : State) : Host.Outcome State Fault Refusal :=
  .next (if s.resumeDue then s.resumeSession.finish else s)

/-! ### The head arbiter (R73 to R75, R92) -/

/-- A port's candidate: its oldest eligible READY entry (R73). -/
def State.candidate? (s : State) (p : Port) : Option Entry :=
  (s.ctx p).queue.find? fun e => e.state == .ready && s.eligible p e

/-- The port that gets the turn (R74). -/
def State.turnPort (s : State) : Option Port :=
  match s.candidate? .a, s.candidate? .b with
  | some _, some _ => some s.turn.other
  | some _, none => some .a
  | none, some _ => some .b
  | none, none => none

/-- The arbiter may choose: no session is open, and the positioner is ON_TRACK or UNLOADED (R73). -/
def State.mayChoose (s : State) : Bool :=
  s.session.isNone && (s.pos.state == .onTrack || s.pos.state == .unloaded)

/-- The arbiter has something to choose (R73). -/
def State.choiceDue (s : State) : Bool := s.mayChoose && (s.driveReq.isSome || s.turnPort.isSome)

/-- A session opens at a position and head (R71). -/
def State.newSession (s : State) (track head : Nat) (owner : OwnerKind) : State :=
  let x : Session :=
    { track := track
      head := head
      owner := owner
      phase := .positioning
      speedSuspended := !(s.spindle.state == .atSpeed)
      positionSuspended := false
      revolutions := 0
      mismatches := 0
      failed := false
      seekOutstanding := false
      passDue := false }
  { s with session := some x }

/-- The positioner stands ON_TRACK at a position with confidence KNOWN (R75). -/
def State.standsAt (s : State) (track : Nat) : Bool :=
  s.pos.state == .onTrack && s.pos.confidence == .known && s.pos.counter == (track : Int)

/-- The opened session is armed at once, or asks for its seek (R75). -/
def State.positionSession (s : State) (track : Nat) : State :=
  if s.standsAt track then s.armingPass
  else (s.updSession fun x => { x with seekOutstanding := true }).seekRequest track

/-- A DRIVE session opens for the drive-owned request (R92). -/
def State.openDrive (s : State) (r : DriveRequest) : State :=
  (s.newSession r.track r.head .drive).positionSession r.track

/-- A STATION session opens for port `p`'s candidate (R74, R75). -/
def State.openStation (s : State) (p : Port) (e : Entry) : State :=
  let track := translate s.copy e.track
  let t : State := { s.newSession track e.head .station with turn := p }
  (t.takeIn p e.tag track).positionSession track

/-- The choice (R73, R74): the drive-owned request first, else the candidate of the port that gets the turn. -/
def State.choose (s : State) : State :=
  match s.driveReq with
  | some r => s.openDrive r
  | none =>
    match s.turnPort with
    | none => s
    | some p =>
      match s.candidate? p with
      | none => s
      | some e => s.openStation p e

/-- ARBITER_CHOICE (R73). -/
def execArbiterChoice (s : State) : Host.Outcome State Fault Refusal :=
  .next (if s.choiceDue then s.choose.finish else s)

/-! ### The format pass (R93) -/

/-- A format pass may begin: its index has come, sector 0 runs, and the law of the gate holds (R82, R93). -/
def State.passStartDue (s : State) : Bool :=
  match s.session with
  | none => false
  | some x =>
    x.passDue && x.serves && x.owner == .drive && s.seq.pass.isNone && s.seq.op.isNone && s.seq.current == some 0 && s.gateLaw

/-- FORMAT_PASS_START (R93): the gate goes on at the index event, whose time is X. -/
def execFormatPassStart (s : State) : Host.Outcome State Fault Refusal :=
  .next (if s.passStartDue then
    { s.updSession fun x => { x with passDue := false } with
      seq := { s.seq with pass := some ⟨s.spindle.lastIndex.getD s.time⟩, gate := true } }
  else s)

end Sys2Proof.Machine
end

