-- ==== Sys2Proof/Machine/SpindleSteps.lean ====
section
/-! DEFINITION. The meanings of the spindle steps (chapter 2): the index event, the fault timers, stopping and
standby. -/

namespace Sys2Proof.Machine

/-! ### The index event (R17, R20 to R22, R30 to R32) -/

/-- An index event in STARTING (R17, R20): the restarted first-index timer, X and P, and, for a period of at most
21,000, the entry to LOCKING with the start of sector 0. -/
def State.indexStarting (s : State) : State :=
  let t := s.updSpindle fun x => { x.takeIndex s.time with firstIndexTimer := s.startTimer 2000000 }
  match t.spindle.period with
  | none => t
  | some n =>
    if n ≤ 21000 then
      (t.updSpindle fun x =>
        { x with
          state := .locking
          duty := 150
          goodCount := 0
          badCount := 0
          firstIndexTimer := none
          absenceTimer := s.startTimer 40000 }).sectorStart 0
    else t

/-- The Session Controller's part of a counted index event (R71, R93): the revolution count, and a format pass may
begin at this index when its session is SERVING and not suspended (log 22). -/
def State.sessionIndex (s : State) : State :=
  let formats := match s.driveReq with
    | some r => r.kind == .formatPass
    | none => false
  s.updSession fun x =>
    { x with
      revolutions := if x.phase = .serving then min (x.revolutions + 1) 3 else x.revolutions
      passDue := x.owner == .drive && formats && x.serves && s.seq.pass.isNone }

/-- The judgement of a period in LOCKING or AT_SPEED (R21, R22): the counts, before any report. -/
def Spindle.judge (x : Spindle) : Spindle :=
  match x.state with
  | .locking => { x with goodCount := if x.within 100 then x.goodCount + 1 else 0 }
  | .atSpeed => { x with badCount := if x.within 200 then 0 else x.badCount + 1 }
  | _ => x

/-- The report that the judged counts bring (R21, R22): AT_SPEED at the fourth good period, the loss at the second bad
one. -/
def State.speedReport (s : State) : State :=
  if s.spindle.state == .locking && decide (4 ≤ s.spindle.goodCount) then s.enterAtSpeed
  else if s.spindle.state == .atSpeed && decide (2 ≤ s.spindle.badCount) then s.speedLoss
  else s

/-- The end of the running window at an index event (R32, R93). -/
def State.indexWindowEnd (s : State) : State := s.windowEnd.passAtIndex

/-- The window end, the report and the start of sector 0, in the order in which they are taken (R85; chapter 12,
Speed Lost During a Write). A report taken before the start resumes the session before it. -/
def State.indexConsequences (s : State) : IndexOrder → State
  | .reportFirst => ((s.speedReport.resumeSession).indexWindowEnd).sectorStart 0
  | .windowFirst => ((s.indexWindowEnd.speedReport).resumeSession).sectorStart 0
  | .startFirst => ((s.indexWindowEnd).sectorStart 0).speedReport

/-- An index event in LOCKING or AT_SPEED (R17, R20, R24, R30): with a fault pending only the index records, the duty
and the counts change. The session counts the event before the window end and the report of that same event are taken:
the manual gives no order, and the count is judged for joining at the resumption (log 4). -/
def State.indexRegulated (s : State) (order : IndexOrder) : State :=
  let t := s.regulate.sessionIndex
  if t.spindle.faultPending then t.updSession fun x => { x with passDue := false }
  else (t.updSpindle Spindle.judge).indexConsequences order

/-- INDEX_EVENT (R17). It is ignored in STOPPED and COASTING, and restarts the quiet timer in BRAKING (R25, R26). -/
def execIndexEvent (order : IndexOrder) (s : State) : Host.Outcome State Fault Refusal :=
  .next (match s.spindle.state with
    | .stopped => s
    | .starting => s.indexStarting.finish
    | .locking => (s.indexRegulated order).finish
    | .atSpeed => (s.indexRegulated order).finish
    | .braking => s.updSpindle fun x => { x with quietTimer := s.startTimer 400000 }
    | .coasting => s)

/-! ### Fault timers (R23) -/

/-- FIRST_INDEX_TIMER_EXPIRY (R23). -/
def execFirstIndexTimerExpiry (s : State) : Host.Outcome State Fault Refusal :=
  .next (if expired s.spindle.firstIndexTimer s.time then (s.spindleFault .noIndex).finish else s)

/-- LOCK_TIMER_EXPIRY (R21, R23). -/
def execLockTimerExpiry (s : State) : Host.Outcome State Fault Refusal :=
  .next (if expired s.spindle.lockTimer s.time then (s.spindleFault .noLock).finish else s)

/-- INDEX_ABSENCE_TIMER_EXPIRY (R23). -/
def execIndexAbsenceTimerExpiry (s : State) : Host.Outcome State Fault Refusal :=
  .next (if expired s.spindle.absenceTimer s.time then (s.spindleFault .indexLost).finish else s)

/-- REGAIN_TIMER_EXPIRY (R22, R23). -/
def execRegainTimerExpiry (s : State) : Host.Outcome State Fault Refusal :=
  .next (if expired s.spindle.regainTimer s.time then (s.spindleFault .notRegained).finish else s)

/-- A pending fault brakes once the heads leave the platter (R24). -/
def State.faultBrakeDue (s : State) : Bool :=
  s.spindle.faultPending && (s.pos.state == .retracting || s.pos.state == .unloaded)

/-- PENDING_FAULT_BRAKE (R24). -/
def execPendingFaultBrake (s : State) : Host.Outcome State Fault Refusal :=
  .next (if s.faultBrakeDue then s.enterBraking.finish else s)

/-! ### Stopping (R19, R25, R26) -/

/-- QUIET_TIMER_EXPIRY (R25). -/
def execQuietTimerExpiry (s : State) : Host.Outcome State Fault Refusal :=
  .next (if s.spindle.state == .braking && expired s.spindle.quietTimer s.time then s.enterStopped.finish else s)

/-- The restart flag stands in STOPPED (R19). -/
def State.restartDue (s : State) : Bool := s.spindle.state == .stopped && s.spindle.restartFlag

/-- RESTART_ON_STOPPED (R19): the flag is cleared, and a spin request is acted on. -/
def execRestartOnStopped (s : State) : Host.Outcome State Fault Refusal :=
  .next (if s.restartDue then ((s.updSpindle fun x => { x with restartFlag := false }).spinRequest).finish else s)

/-- The emergency retract that COASTING waits for has ended (R26). -/
def State.coastingEndDue (s : State) : Bool := s.spindle.state == .coasting && s.pos.state == .unloaded

/-- COASTING_END (R26). -/
def execCoastingEnd (s : State) : Host.Outcome State Fault Refusal :=
  .next (if s.coastingEndDue then s.enterBraking.finish else s)

/-! ### Standby (R29) -/

/-- IDLE_SECOND_ELAPSED (R29): the count rises, at most to 2,550, and the start reading advances; standby is taken when
it is wanted. -/
def execIdleSecondElapsed (s : State) : Host.Outcome State Fault Refusal :=
  .next (if expired s.spindle.idleTimer s.time then
    (s.updSpindle fun x =>
      { x with
        idleCount := min (x.idleCount + 1) 2550
        idleTimer := x.idleTimer.map fun t => { t with start := t.start + 1000000 } }).finish
  else s)

/-- A standby stop with the heads parked (R29). -/
def State.standbyBrakeDue (s : State) : Bool :=
  s.spindle.standbyStop && s.regulated && s.pos.state == .unloaded

/-- STANDBY_BRAKE (R29). -/
def execStandbyBrake (s : State) : Host.Outcome State Fault Refusal :=
  .next (if s.standbyBrakeDue then s.enterBraking.finish else s)

end Sys2Proof.Machine
end

