-- ==== Sys2Proof/Machine/SupplySteps.lean ====
section
/-! DEFINITION. The meanings of the supply steps (chapter 9): the cascade, the rising edge and recovery. -/

namespace Sys2Proof.Machine

/-- Begin the emergency retract over a distance (R53): the motion, or the unload at once for distance 0. -/
def State.beginEmergency (s : State) (distance : Nat) : State :=
  let t := s.updPos fun x => { x with state := .emergencyRetract }
  if distance = 0 then t.unload else t.startMove (t.newProfile .emergency .outward distance)

/-- The distance of the emergency retract, from the state just before the edge (R53). -/
def State.emergencyDistance (s : State) : Nat :=
  if s.pos.confidence = .known then (640 - s.pos.counter).toNat
  else match s.pos.profile with
    | some f => if f.kind = .retract then 660 - f.stepIndex else 660
    | none => 660

/-- What the edge clears in the positioner whatever its state: requests, the stage plan, the held retract and every
wait (R53). -/
def Positioner.clearWork (x : Positioner) : Positioner :=
  { x with
    profile := none
    waitingTarget := none
    heldRetract := false
    plan := []
    request := none
    loadTimer := none
    stepTimer := none
    settleTimer := none }

/-- The positioner's part of the edge (R53). A seek of the session is answered ABANDONED: the session, which fails at
the same edge (R89), judges its close in its own part. -/
def State.posSupplyEdge (s : State) : State :=
  let t := (s.updPos Positioner.clearWork).updSession fun x => { x with seekOutstanding := false }
  match s.pos.state with
  | .unloaded => t
  | .loading => t.updPos fun x => { x with state := .unloaded }
  | .onTrack => t.beginEmergency s.emergencyDistance
  | .recalibrating => (t.setUncertain).beginEmergency s.emergencyDistance
  | .seeking => (t.setUncertain).beginEmergency s.emergencyDistance
  | .settling => (t.setUncertain).beginEmergency s.emergencyDistance
  | .retracting => t.beginEmergency s.emergencyDistance
  | .emergencyRetract => s

/-- The spindle's part of the edge (R26); `parked`: the positioner was UNLOADED or LOADING at the edge. COASTING, where
R26 says that no edge comes although R145 lets recovery be declared in it, stays COASTING (log 36). -/
def State.spindleSupplyEdge (s : State) (parked : Bool) : State :=
  let t : State :=
    { s with
      spindle := { s.spindle with
        firstIndexTimer := none
        lockTimer := none
        absenceTimer := none
        regainTimer := none
        idleCount := 0
        idleTimer := none
        restartFlag := false
        standbyFlag := false
        faultPending := false
        standbyStop := false }
      seq := { s.seq with current := none } }
  if s.spindle.state = .starting ∨ s.spindle.state = .locking ∨ s.spindle.state = .atSpeed then
    if parked then t.enterBraking
    else t.updSpindle fun x => { x with state := .coasting, duty := 0, quietTimer := none }
  else t

/-- READY entries of a port complete FAILED with cause SUPPLY (R68). -/
def State.failReady (s : State) (p : Port) : State :=
  ((s.ctx p).queue.filter fun e => e.state == .ready).foldl
    (fun u e => u.completeEntry p e.tag (e.slotlessFailure .supply)) s

/-- An inbound phase in progress at port `p` ends with DATA_TIMEOUT (R68, R133, R139, R142). -/
def State.edgeEndsPhase (s : State) (p : Port) : State :=
  if (s.link p).state == .dataIn then s.timeOutPhase p else s

/-- The supply cascade (R142), its parts in an order that keeps each part's own condition: the gate's cause is read
before the gate drops, and the positioner's state before it moves. -/
def State.cascade (s : State) : State :=
  let activeCause : Cause := if s.seq.gate then .torn else .supply
  let parked := s.pos.state == .unloaded || s.pos.state == .loading
  let t : State := { s with supply := ⟨.low, none⟩ }
  let t := (t.raiseFlag .supplyLow).postBoth .supplyLow
  let t := t.dropGate
  let t := t.posSupplyEdge
  let t := t.spindleSupplyEdge parked
  let t := t.custodySupplyEdge
  let t := t.failSession .supply activeCause
  let t := t.failWaitingRequest .supply
  let t := (t.failReady .a).failReady .b
  (t.edgeEndsPhase .a).edgeEndsPhase .b

/-- SUPPLY_FALLING_EDGE (R142, R144): the cascade in HIGH; LOW again in RECOVERING; nothing in LOW. -/
def execSupplyFallingEdge (s : State) : Host.Outcome State Fault Refusal :=
  let t : State := { s with pins := { s.pins with comparatorHigh := false } }
  .next (match s.supply.state with
    | .high => t.cascade.finish
    | .low => t
    | .recovering => { t with supply := ⟨.low, none⟩ })

/-- SUPPLY_RISING_EDGE (R144): in LOW the recovery timer starts. -/
def execSupplyRisingEdge (s : State) : Host.Outcome State Fault Refusal :=
  let t : State := { s with pins := { s.pins with comparatorHigh := true } }
  .next (match s.supply.state with
    | .low => { t with supply := ⟨.recovering, s.startTimer 100000⟩ }
    | .high => t
    | .recovering => t)

/-- RECOVERY_TIMER_EXPIRY (R144, R113): recovery is declared. -/
def execRecoveryTimerExpiry (s : State) : Host.Outcome State Fault Refusal :=
  .next (if s.supply.state == .recovering && expired s.supply.recoveryTimer s.time then
    let t : State := { s with supply := ⟨.high, none⟩ }
    (t.postBoth .supplyRecovered).custodyRecovery.finish
  else s)

end Sys2Proof.Machine
end

