-- ==== Sys2Proof/Machine/Schedule.lean ====
section
/-! DEFINITION. What the drive does by itself when no command waits (log 1): the first step that is due. Steps that
the manual takes at once after another come first (log 5), then the timers (R16); several that are due at one moment
are taken in this order, and any other order can be had by putting them in the queue (log 4). -/

namespace Sys2Proof.Machine

/-- The freed place of a full notice queue can be filled (R150). -/
def PortContext.refillDue (c : PortContext) : Bool := decide (c.notices.length < noticeRoom) && c.waiting

/-- A freed latch with no cartridge in the slot: the present sensor is read again (R96; log 30). -/
def State.goneDue (s : State) : Bool :=
  !s.pins.present && !s.custody.latched && (s.custody.state == .releasing || s.custody.state == .jammed)

/-- The write in flight has its matching header to pass: the drive reaches the data field (R82). Where inside the
sector it does so the manual does not say (log 27). -/
def State.dataFieldDue (s : State) : Bool :=
  match s.seq.op with
  | none => false
  | some o => o.kind.writes && !o.headerMatched && s.judgeFound o .asRecorded == .matching

/-- The 950 microsecond point of a write whose gate is still on: its check bytes have been recorded by then (R82;
log 27). -/
def State.checkBytesDue (s : State) : Bool :=
  match s.seq.op with
  | none => false
  | some o => o.kind.writes && s.seq.gate && s.endPointDue

/-- The steps that follow others at once. -/
def State.atOnce (s : State) : List (Bool × Instr) :=
  [(s.faultBrakeDue, .pendingFaultBrake),
    (s.standbyBrakeDue, .standbyBrake),
    (s.coastingEndDue, .coastingEnd),
    (s.stageEndedHeld, .heldRetractStart),
    ((s.discarded? .a).isSome, .discardedEntryRemoval .a),
    ((s.discarded? .b).isSome, .discardedEntryRemoval .b),
    (s.resumeDue, .sessionResume),
    (s.passStartDue, .formatPassStart),
    (s.dataFieldDue, .dataFieldReached .asRecorded),
    (s.waitingDue, .waitingTargetStart),
    (s.loadingDue, .mountStepLoading),
    (s.restartDue, .restartOnStopped),
    (s.stopDue, .unmountStopRequest),
    (s.goneDue, .presentSensorInactive),
    (s.releasingDue || s.firstPulseDue, .releaseAttemptStart),
    (s.drainDue, .drainComplete),
    (s.choiceDue, .arbiterChoice),
    (s.portA.refillDue, .noticeRefill .a),
    (s.portB.refillDue, .noticeRefill .b)]

/-- The start event of the next sector (R31). -/
def State.nextStart (s : State) : Nat :=
  match s.seq.current with
  | none => 0
  | some c => c + 1

/-- The timers of the spindle, the sequencer and the positioner. -/
def State.mechanismTimers (s : State) : List (Bool × Instr) :=
  let stepOver := expired s.pos.stepTimer s.time
  let creeping := match s.pos.profile with
    | some f => f.kind == .creep
    | none => false
  [(s.checkBytesDue, .checkBytesRecorded),
    (s.endPointDue, .operationEndPoint .asRecorded .asRecorded),
    (decide (1 ≤ s.nextStart) && decide (s.nextStart ≤ 19) && s.startDue s.nextStart, .sectorStartEvent s.nextStart),
    (expired s.spindle.firstIndexTimer s.time, .firstIndexTimerExpiry),
    (expired s.spindle.lockTimer s.time, .lockTimerExpiry),
    (expired s.spindle.absenceTimer s.time, .indexAbsenceTimerExpiry),
    (expired s.spindle.regainTimer s.time, .regainTimerExpiry),
    (s.spindle.state == .braking && expired s.spindle.quietTimer s.time, .quietTimerExpiry),
    (expired s.spindle.idleTimer s.time, .idleSecondElapsed),
    (s.pos.state == .loading && expired s.pos.loadTimer s.time, .loadTimerExpiry),
    (s.pos.profile.isSome && !creeping && stepOver, .stepIntervalExpiry .asCarriage),
    (creeping && stepOver, .creepIntervalExpiry .asCarriage),
    (expired s.pos.settleTimer s.time && (s.pos.state == .settling || s.pos.state == .retracting), .settleTimerExpiry)]

/-- The timers of custody, the panel, the reservation and the supply. -/
def State.custodyTimers (s : State) : List (Bool × Instr) :=
  [(s.custody.state == .inserted && expired s.custody.debounceTimer s.time, .debounceTimerExpiry),
    (s.custody.state == .mounting && s.custody.step == some .latching && expired s.custody.latchTimer s.time,
      .latchTimerExpiry),
    (expired s.custody.latchPulse s.time, .latchPulseEnd),
    (expired s.custody.ejectPulse s.time, .ejectPulseEnd),
    (s.custody.state == .releasing && expired s.custody.releaseTimer s.time, .releaseTimerExpiry),
    (expired s.custody.holdTimer s.time, .holdTimerExpiry),
    (expired s.custody.attentionTimer s.time, .attentionTimerExpiry),
    (s.reservationExpiryDue, .reservationIdleTimerExpiry),
    (s.supply.state == .recovering && expired s.supply.recoveryTimer s.time, .recoveryTimerExpiry)]

/-- The timer of a link unit (R155). -/
def State.linkTimers (s : State) (p : Port) : List (Bool × Instr) :=
  let out := expired (s.link p).timer s.time
  [((s.link p).state == .receivingBlock && out, .blockTimerExpiry p),
    ((s.link p).state == .dataIn && out, .dataPhaseGapTimeout p),
    (s.sending p && out, .stallTimerExpiry p)]

/-- The first entry whose condition holds. -/
def firstDue : List (Bool × Instr) → Option Instr
  | [] => none
  | (now, i) :: rest => if now then some i else firstDue rest

/-- The step that the drive takes by itself at this moment, if any. -/
def State.due (s : State) : Option Instr :=
  firstDue (s.atOnce ++ s.mechanismTimers ++ s.custodyTimers ++ s.linkTimers .a ++ s.linkTimers .b)

end Sys2Proof.Machine
end

