-- ==== Sys2Proof/Machine/Dispatch.lean ====
section
/-! DEFINITION. The dispatch: one arm per row of the opcode table. -/

namespace Sys2Proof.Machine

/-- The effect of a command on everything but the queue. -/
def exec (i : Instr) (s : State) : Host.Outcome State Fault Refusal :=
  match i with
  | .powerOnReset r => Sys2Proof.Machine.execPowerOnReset r s
  | .portReset p => Sys2Proof.Machine.execPortReset p s
  | .presenceLineLow p => Sys2Proof.Machine.execPresenceLineLow p s
  | .presenceLineHigh p => Sys2Proof.Machine.execPresenceLineHigh p s
  | .blockTimerExpiry p => Sys2Proof.Machine.execBlockTimerExpiry p s
  | .dataPhaseGapTimeout p => Sys2Proof.Machine.execDataPhaseGapTimeout p s
  | .stallTimerExpiry p => Sys2Proof.Machine.execStallTimerExpiry p s
  | .responseComplete p => Sys2Proof.Machine.execResponseComplete p s
  | .noticeRecordTaken p => Sys2Proof.Machine.execNoticeRecordTaken p s
  | .noticeRefill p => Sys2Proof.Machine.execNoticeRefill p s
  | .fetchDataComplete p => Sys2Proof.Machine.execFetchDataComplete p s
  | .writeDataPhaseComplete p bytes => Sys2Proof.Machine.execWriteDataPhaseComplete p bytes s
  | .mediaRecordPhaseComplete p bytes => Sys2Proof.Machine.execMediaRecordPhaseComplete p bytes s
  | .parameterPhaseComplete p bytes => Sys2Proof.Machine.execParameterPhaseComplete p bytes s
  | .unknownCommand p code blk => Sys2Proof.Machine.execUnknownCommand p code blk s
  | .status p blk sensors => Sys2Proof.Machine.execStatus p blk sensors s
  | .fetchNotice p blk => Sys2Proof.Machine.execFetchNotice p blk s
  | .acknowledgeConditions p blk => Sys2Proof.Machine.execAcknowledgeConditions p blk s
  | .acceptMedium p blk => Sys2Proof.Machine.execAcceptMedium p blk s
  | .reserve p blk => Sys2Proof.Machine.execReserve p blk s
  | .release p blk => Sys2Proof.Machine.execRelease p blk s
  | .lock p blk => Sys2Proof.Machine.execLock p blk s
  | .unlock p blk => Sys2Proof.Machine.execUnlock p blk s
  | .spinUp p blk => Sys2Proof.Machine.execSpinUp p blk s
  | .spinDown p blk => Sys2Proof.Machine.execSpinDown p blk s
  | .read p blk => Sys2Proof.Machine.execRead p blk s
  | .write p blk => Sys2Proof.Machine.execWrite p blk s
  | .verify p blk => Sys2Proof.Machine.execVerify p blk s
  | .fetchData p blk => Sys2Proof.Machine.execFetchData p blk s
  | .cancel p blk => Sys2Proof.Machine.execCancel p blk s
  | .eject p blk => Sys2Proof.Machine.execEject p blk s
  | .readMediaRecord p blk => Sys2Proof.Machine.execReadMediaRecord p blk s
  | .writeMediaRecord p blk => Sys2Proof.Machine.execWriteMediaRecord p blk s
  | .mapSpare p blk => Sys2Proof.Machine.execMapSpare p blk s
  | .formatTrack p blk => Sys2Proof.Machine.execFormatTrack p blk s
  | .setParameters p blk => Sys2Proof.Machine.execSetParameters p blk s
  | .readParameters p blk => Sys2Proof.Machine.execReadParameters p blk s
  | .indexEvent order => Sys2Proof.Machine.execIndexEvent order s
  | .sectorStartEvent k => Sys2Proof.Machine.execSectorStartEvent k s
  | .operationEndPoint header data => Sys2Proof.Machine.execOperationEndPoint header data s
  | .discardedEntryRemoval p => Sys2Proof.Machine.execDiscardedEntryRemoval p s
  | .firstIndexTimerExpiry => Sys2Proof.Machine.execFirstIndexTimerExpiry s
  | .lockTimerExpiry => Sys2Proof.Machine.execLockTimerExpiry s
  | .indexAbsenceTimerExpiry => Sys2Proof.Machine.execIndexAbsenceTimerExpiry s
  | .regainTimerExpiry => Sys2Proof.Machine.execRegainTimerExpiry s
  | .pendingFaultBrake => Sys2Proof.Machine.execPendingFaultBrake s
  | .quietTimerExpiry => Sys2Proof.Machine.execQuietTimerExpiry s
  | .restartOnStopped => Sys2Proof.Machine.execRestartOnStopped s
  | .idleSecondElapsed => Sys2Proof.Machine.execIdleSecondElapsed s
  | .standbyBrake => Sys2Proof.Machine.execStandbyBrake s
  | .coastingEnd => Sys2Proof.Machine.execCoastingEnd s
  | .loadTimerExpiry => Sys2Proof.Machine.execLoadTimerExpiry s
  | .waitingTargetStart => Sys2Proof.Machine.execWaitingTargetStart s
  | .stepIntervalExpiry sensor => Sys2Proof.Machine.execStepIntervalExpiry sensor s
  | .creepIntervalExpiry sensor => Sys2Proof.Machine.execCreepIntervalExpiry sensor s
  | .settleTimerExpiry => Sys2Proof.Machine.execSettleTimerExpiry s
  | .heldRetractStart => Sys2Proof.Machine.execHeldRetractStart s
  | .sessionResume => Sys2Proof.Machine.execSessionResume s
  | .arbiterChoice => Sys2Proof.Machine.execArbiterChoice s
  | .formatPassStart => Sys2Proof.Machine.execFormatPassStart s
  | .presentSensorActive cartridge => Sys2Proof.Machine.execPresentSensorActive cartridge s
  | .presentSensorInactive => Sys2Proof.Machine.execPresentSensorInactive s
  | .debounceTimerExpiry => Sys2Proof.Machine.execDebounceTimerExpiry s
  | .latchSensorLatched writeProtect => Sys2Proof.Machine.execLatchSensorLatched writeProtect s
  | .latchTimerExpiry => Sys2Proof.Machine.execLatchTimerExpiry s
  | .latchPulseEnd => Sys2Proof.Machine.execLatchPulseEnd s
  | .mountStepLoading => Sys2Proof.Machine.execMountStepLoading s
  | .drainComplete => Sys2Proof.Machine.execDrainComplete s
  | .unmountStopRequest => Sys2Proof.Machine.execUnmountStopRequest s
  | .releaseAttemptStart => Sys2Proof.Machine.execReleaseAttemptStart s
  | .ejectPulseEnd => Sys2Proof.Machine.execEjectPulseEnd s
  | .releaseTimerExpiry => Sys2Proof.Machine.execReleaseTimerExpiry s
  | .buttonDown => Sys2Proof.Machine.execButtonDown s
  | .buttonUp => Sys2Proof.Machine.execButtonUp s
  | .holdTimerExpiry => Sys2Proof.Machine.execHoldTimerExpiry s
  | .attentionTimerExpiry => Sys2Proof.Machine.execAttentionTimerExpiry s
  | .reservationIdleTimerExpiry => Sys2Proof.Machine.execReservationIdleTimerExpiry s
  | .supplyFallingEdge => Sys2Proof.Machine.execSupplyFallingEdge s
  | .supplyRisingEdge => Sys2Proof.Machine.execSupplyRisingEdge s
  | .recoveryTimerExpiry => Sys2Proof.Machine.execRecoveryTimerExpiry s
  | .inboundByteTaken p byte => Sys2Proof.Machine.execInboundByteTaken p byte s
  | .outboundByteTaken p => Sys2Proof.Machine.execOutboundByteTaken p s
  | .dataFieldReached header => Sys2Proof.Machine.execDataFieldReached header s
  | .checkBytesRecorded => Sys2Proof.Machine.execCheckBytesRecorded s

end Sys2Proof.Machine
end

