-- ==== Sys2Proof/Safety.lean ====
section
/-! DEFINITION. What counts as a safe run, in the terms the statements use. -/

namespace Sys2Proof.Machine

/-- The write-gate law (R82): a gate that is on has its conditions, and something that writes is being served. -/
def State.GateLawful (s : State) : Prop := s.seq.gate = true → s.gateLaw = true ∧ s.writeServed = true

/-- The buffer RAM and the medium are in canonical form. -/
def State.MemoryCanonical (s : State) : Prop :=
  Memory.wf s.ram = true ∧ sparseWf SectorImage.unrecorded s.medium = true

/-- At most eight notice records (R147), at most eight live entries, no two of them with one tag (R57), and a pending
set with at most one record of a kind, in the order of their priority (R147, R148). -/
def PortContext.Bounded (c : PortContext) : Prop :=
  c.notices.length ≤ 8 ∧ c.queue.length ≤ 8 ∧ (c.queue.map Entry.tag).Nodup ∧
    (c.pendingSet.map fun n => n.body.priority).Pairwise (· < ·)

/-- Every sector has its slot (R72), every sector buffer its holder (R59). -/
def State.TablesWhole (s : State) : Prop := s.slots.length = 20 ∧ s.pool.length = 16

/-- No port holds more than twelve sector buffers (R59). -/
def State.BuffersShared (s : State) : Prop := s.heldBuffers .a ≤ 12 ∧ s.heldBuffers .b ≤ 12

/-- The structural laws of the state, together. -/
def State.Sound (s : State) : Prop :=
  s.MemoryCanonical ∧ s.portA.Bounded ∧ s.portB.Bounded ∧ s.TablesWhole ∧ s.BuffersShared

/-- The duty's law (R18): 255 in STARTING, 40 to 255 in LOCKING and AT_SPEED, 0 in every other state. -/
def Spindle.DutyLawful (x : Spindle) : Prop :=
  match x.state with
  | .starting => x.duty = 255
  | .locking => 40 ≤ x.duty ∧ x.duty ≤ 255
  | .atSpeed => 40 ≤ x.duty ∧ x.duty ≤ 255
  | _ => x.duty = 0

/-- What every operation inside a step keeps of the state `s₀` before it: drive time, the pins, the parameter table,
the supply, the waiting commands, the eject pulse, and the structural and duty laws. -/
def State.Kept (s₀ s : State) : Prop :=
  s.time = s₀.time ∧ s.pins = s₀.pins ∧ s.params = s₀.params ∧ s.supply = s₀.supply ∧ s.pending = s₀.pending ∧
    s.custody.ejectPulse = s₀.custody.ejectPulse ∧ (s₀.Sound → s.Sound) ∧
    (s₀.spindle.DutyLawful → s.spindle.DutyLawful)

/-- No other port than `p` holds the reservation. -/
def State.FreeFor (s : State) (p : Port) : Prop := ∀ r, s.reservation = some r → r.holder = p

/-- The port other than `p` does not hold the reservation in EXCLUSIVE mode. -/
def State.OpenTo (s : State) (p : Port) : Prop := ∀ r, s.reservation = some r → r.holder = p ∨ r.mode = .write

/-- A cartridge is mounted or blank in the drive, and port `p` has acknowledged it. -/
def State.MediumKnownTo (s : State) (p : Port) : Prop :=
  (s.custody.state = .mounted ∨ s.custody.state = .blank) ∧ (s.ctx p).acknowledged = s.custody.generation

/-- The fields of a transfer's block are in range (R58). -/
def TransferFields (b : Block) : Prop :=
  b.track ≤ 599 ∧ b.head ≤ 1 ∧ (b.b5 = 0xFF ∨ b.b5.toNat ≤ 19) ∧ 1 ≤ b.count ∧ b.count ≤ 8 ∧
    (b.b7 = 0xFF ∨ b.b7.toNat ≤ 7)

/-- The port's link is sending, and its last byte's taking ends the response or phase. -/
def State.Sends (s : State) (p : Port) : Prop :=
  (s.ctx p).linkPresent = true ∧ ((s.link p).state = .responseOut ∨ (s.link p).state = .dataOut)

/-- Bytes that are the rest of the inbound phase at port `p`. -/
def State.EndsPhase (s : State) (p : Port) (bytes : List Byte) : Prop :=
  (s.ctx p).linkPresent = true ∧ (s.link p).state = .dataIn ∧ (s.link p).counter + bytes.length = (s.link p).expected

end Sys2Proof.Machine
end

