-- ==== Sys2Proof/Certificates/Slice0/Obligations.lean ====
section
/-! DEFINITION. The statements for the provers. A right-hand side written with an operation of the model (`finish`,
`respond`, `completeEntry`, …) is made whole by the statement whose clauses say what that operation does; the plain
updates (`updCtx`, `updLink`, `updEntry`, `assignBuffers`, `setSlot`, …) change the field they name and nothing else. -/

open Sys2Proof Sys2Proof.Machine

/-! ### The machine -/

/-- One step takes the command at the front of the queue and runs it on the rest (log 1). -/
def Obligations.StepRunsFrontCommand : Prop :=
  ∀ (s : State) (c : Instr) (rest : List Instr), s.pending = c :: rest →
    step s = exec c { s with pending := rest }

/-- With an empty queue the drive takes the step that is due; with none due, drive time advances by one microsecond and
nothing else changes. The model's choice: log 1. -/
def Obligations.IdleStepTakesWhatIsDue : Prop :=
  ∀ s : State, s.pending = [] →
    (∀ i, s.due = some i → step s = exec i s) ∧
    (s.due = none → step s = .next { s with time := s.time + 1 })

/-- The structural laws (`State.Sound`) are kept by every step from every state that has them: the memories are
canonical, at most eight notices and eight entries a port with no tag twice, the pending set in the order of its kinds,
twenty slots and sixteen buffers, and at most twelve buffers a port. -/
def Obligations.StepKeepsStructure : Prop :=
  ∀ s t : State, s.Sound → step s = .next t → t.Sound

/-- The write-gate law of R82 is kept by every step from every state that has it. -/
def Obligations.StepKeepsGateLaw : Prop :=
  ∀ s t : State, s.GateLawful → step s = .next t → t.GateLawful

/-- The duty's law of R18 is kept by every step from every state that has it. -/
def Obligations.StepKeepsDutyLaw : Prop :=
  ∀ s t : State, s.spindle.DutyLawful → step s = .next t → t.spindle.DutyLawful

/-- The state after power-on reset has the three laws. -/
def Obligations.ResetMeetsTheLaws : Prop :=
  State.reset.Sound ∧ State.reset.GateLawful ∧ State.reset.spindle.DutyLawful

/-- No command runs drive time: power-on reset sets it to 0, every other command leaves it; it runs in the steps that an
empty queue takes. No command touches the waiting commands. That a row which stands for many bytes takes no drive time,
and the queue itself, are the model's: log 1. -/
def Obligations.OnlyResetSetsDriveTime : Prop :=
  ∀ (c : Instr) (s t : State), exec c s = .next t →
    t.pending = s.pending ∧
    ((∃ r, c = .powerOnReset r) → t.time = 0) ∧
    ((∀ r, c ≠ .powerOnReset r) → t.time = s.time)

/-- The parameter table changes at two commands only: power-on reset and the end of a SET PARAMETERS phase. -/
def Obligations.ParametersChangeAtTwoCommands : Prop :=
  ∀ (c : Instr) (s t : State), exec c s = .next t → (∀ r, c ≠ .powerOnReset r) →
    (∀ p bytes, c ≠ .parameterPhaseComplete p bytes) → t.params = s.params

/-- A cartridge that is not sampled WRITABLE is never written: from a state that has the gate law, no command but those
that put a cartridge in the slot, take it out, or reset the drive changes what is recorded. -/
def Obligations.ProtectedCartridgeIsNeverWritten : Prop :=
  ∀ (c : Instr) (s t : State), s.GateLawful → s.custody.protect ≠ some .writable → exec c s = .next t →
    (∀ m, c ≠ .presentSensorActive m) → c ≠ .presentSensorInactive → (∀ r, c ≠ .powerOnReset r) →
    t.medium = s.medium

/-- What a station command of port `p` leaves of the other port: its link unit, its presence, its acknowledged
generation, its lock and its last refusal. -/
def Obligations.CommandLeavesTheOtherStation : Prop :=
  ∀ (c : Instr) (s t : State) (p : Port) (blk : Block), commandBlock c = some (p, blk) → exec c s = .next t →
    (t.ctx p.other).link = (s.ctx p.other).link ∧
    (t.ctx p.other).linkPresent = (s.ctx p.other).linkPresent ∧
    (t.ctx p.other).acknowledged = (s.ctx p.other).acknowledged ∧
    (t.ctx p.other).lockHeld = (s.ctx p.other).lockHeld ∧
    (t.ctx p.other).lastRefusal = (s.ctx p.other).lastRefusal

/-! ### What is sent and recorded -/

/-- Decoding the eight bytes that deliver a station command gives the command back, and the command decoded from any
eight bytes is delivered by those bytes. -/
def Obligations.BlocksRoundTrip : Prop :=
  (∀ (i : Instr) (p : Port) (blk : Block) (r : SensorReading), commandBlock i = some (p, blk) → i.wf = true →
    (∀ q b r', i = .status q b r' → r' = r) →
    ∃ bytes, encodeBlock i = some bytes ∧ bytes.length = 8 ∧ decodeBlock p r bytes = some i) ∧
  (∀ (p : Port) (r : SensorReading) (bytes : List Byte), bytes.length = 8 →
    ∃ i, decodeBlock p r bytes = some i ∧ i.wf = true ∧ encodeBlock i = some bytes)

/-- Blocks written out from 13.2: a READ, an EJECT AFTER, a RESERVE, a CANCEL, a code that names no command. -/
def Obligations.WrittenBlocksDecode : Prop :=
  ∀ r : SensorReading,
    decodeBlock .a r [0x18, 0x41, 0x01, 0xF4, 0x01, 0xFF, 0x04, 0xFF] =
      some (.read .a ⟨0x41, 0x01, 0xF4, 0x01, 0xFF, 0x04, 0xFF⟩) ∧
    decodeBlock .b r [0x20, 0, 0x02, 0, 0, 0, 0, 0] = some (.eject .b ⟨0, 0x02, 0, 0, 0, 0, 0⟩) ∧
    decodeBlock .a r [0x08, 0, 0x01, 0x1E, 0, 0, 0, 0] = some (.reserve .a ⟨0, 0x01, 0x1E, 0, 0, 0, 0⟩) ∧
    decodeBlock .b r [0x1C, 0x41, 0, 0, 0, 0, 0, 0] = some (.cancel .b ⟨0x41, 0, 0, 0, 0, 0, 0⟩) ∧
    decodeBlock .a r [0x05, 0, 0, 0, 0, 0, 0, 0] = some (.unknownCommand .a 0x05 ⟨0, 0, 0, 0, 0, 0, 0⟩)

/-- The check code (R6): its bit step by the generator polynomial, the order of the bits and bytes, the start value, the
two recorded bytes, the two equal tests of a field, the reference value, and what each check covers. -/
def Obligations.CheckCodeOfEveryField : Prop :=
  (∀ (reg : BitVec 16) (b : Bool) (i : Nat), i < 16 →
    (crcBit reg b).getLsbD i =
      ((decide (1 ≤ i) && reg.getLsbD (i - 1)) ^^ ((reg.getLsbD 15 != b) && (i == 12 || i == 5 || i == 0)))) ∧
  (∀ (reg : BitVec 16) (x : Byte), crcByte reg x =
    crcBit (crcBit (crcBit (crcBit (crcBit (crcBit (crcBit (crcBit reg (x.getLsbD 7)) (x.getLsbD 6)) (x.getLsbD 5))
      (x.getLsbD 4)) (x.getLsbD 3)) (x.getLsbD 2)) (x.getLsbD 1)) (x.getLsbD 0)) ∧
  crc [] = 0xFFFF#16 ∧
  (∀ (l : List Byte) (x : Byte), crc (l ++ [x]) = crcByte (crc l) x) ∧
  (∀ l : List Byte, crcBytes l = [(crc l).extractLsb' 8 8, (crc l).extractLsb' 0 8]) ∧
  (∀ (l : List Byte) (hi lo : Byte), checkGood l [hi, lo] = true ↔ crc l = hi ++ lo) ∧
  (∀ (l : List Byte) (hi lo : Byte), checkGood l [hi, lo] = true ↔ crc (l ++ [hi, lo]) = 0) ∧
  crc [0x31, 0x32, 0x33, 0x34, 0x35, 0x36, 0x37, 0x38, 0x39] = 0x29B1#16 ∧
  (∀ p h k, headerBytes p h k = (headerBytes p h k).take 5 ++ crcBytes ((headerBytes p h k).take 5) ∧
    (headerBytes p h k).length = 7) ∧
  (∀ l : List Byte, l.length = 512 → dataFieldBytes l = l ++ crcBytes l ∧ (dataFieldBytes l).length = 514) ∧
  (∀ r : MediaRecord, r.serial.length = 4 → r.label.length = 16 → r.spares.length = 16 →
    r.bytes = r.bytes.take 510 ++ crcBytes (r.bytes.take 510) ∧ r.bytes.length = 512)

/-- The judgement of a header (R7) against position `p`, head `h` and sector `k`: none found; a bad check; a good check
with bit 0 of byte 4 clear; and a whole header, judged by its position, then its head, then its sector. The same holds
of any seven bytes with a good check and bit 0 of byte 4 set: the other bits of that byte are ignored (R4). -/
def Obligations.HeaderJudgedInOrder : Prop :=
  (∀ p h k : Nat,
    judgeHeader p h k none = .failed .noHeader ∧
    (∀ b : List Byte, b.length = 7 → checkGood (b.take 5) (b.drop 5) = false →
      judgeHeader p h k (some b) = .failed .headerCheck) ∧
    (∀ b : List Byte, b.length = 7 → checkGood (b.take 5) (b.drop 5) = true → (b.getD 4 0).getLsbD 0 = false →
      judgeHeader p h k (some b) = .failed .noHeader) ∧
    (∀ p' h' k' : Nat, p' < 65536 → h' < 256 → k' < 256 →
      judgeHeader p h k (some (headerBytes p' h' k')) =
        if p' ≠ p then .trackMismatch else if h' ≠ h then .failed .headMismatch
        else if k' ≠ k then .failed .sectorMismatch else .matching)) ∧
  (∀ (p h k : Nat) (b : List Byte), b.length = 7 → checkGood (b.take 5) (b.drop 5) = true →
    (b.getD 4 0).getLsbD 0 = true →
    let num (i : Nat) : Nat := (b.getD i 0).toNat
    judgeHeader p h k (some b) =
      if num 0 * 256 + num 1 ≠ p then .trackMismatch else if num 2 ≠ h then .failed .headMismatch
      else if num 3 ≠ k then .failed .sectorMismatch else .matching)

/-- Reading back the 512 bytes of a media record gives the record, and the eight tests of R12 pass it exactly when every
used spare entry names a logical track and no track stands in two MAPPED entries. Any 512 bytes pass exactly when the
eight tests hold of them. -/
def Obligations.MediaRecordRoundTrip : Prop :=
  (∀ r : MediaRecord, r.serial.length = 4 → r.label.length = 16 → r.spares.length = 16 → r.writeCount < 65536 →
    (∀ e ∈ r.spares, e.track < 65536) → (∀ e ∈ r.spares, e.state = .free → e.track = 0) →
    r.bytes.length = 512 ∧ decodeRecord r.bytes = r ∧
    (validRecord r.bytes = true ↔
      (∀ e ∈ r.spares, e.state ≠ .free → e.track < 600) ∧
      (∀ i j : Nat, i < j → j < 16 → ∀ e f : SpareEntry, r.spares[i]? = some e → r.spares[j]? = some f →
        e.state = .mapped → f.state = .mapped → e.track ≠ f.track))) ∧
  (∀ b : List Byte, b.length = 512 →
    let num (i : Nat) : Nat := (b.getD i 0).toNat
    let track (k : Nat) : Nat := num (29 + 3 * k) * 256 + num (30 + 3 * k)
    (validRecord b = true ↔
      crc (b.take 510) = b.getD 510 0 ++ b.getD 511 0 ∧
      (num 0 = 0x5A ∧ num 1 = 0x3C) ∧
      num 2 = 1 ∧
      num 23 * 256 + num 24 = 600 ∧
      num 25 = 20 ∧
      (∀ k, k < 16 → num (28 + 3 * k) ≤ 2) ∧
      (∀ k, k < 16 → num (28 + 3 * k) ≠ 0 → track k < 600) ∧
      (∀ i j, i < j → j < 16 → num (28 + 3 * i) = 1 → num (28 + 3 * j) = 1 → track i ≠ track j)))

/-- Translation of a logical track by the copy held. -/
def Obligations.TranslationOfTracks : Prop :=
  (∀ l : Nat, Machine.translate none l = l + 1) ∧
  (∀ (r : MediaRecord) (l i : Nat) (e : SpareEntry), r.spares[i]? = some e → e.state = .mapped → e.track = l →
    (∀ j f, j < i → r.spares[j]? = some f → f.state = .mapped → f.track ≠ l) → Machine.translate (some r) l = 601 + i) ∧
  (∀ (r : MediaRecord) (l : Nat), (∀ e ∈ r.spares, e.state = .mapped → e.track ≠ l) →
    Machine.translate (some r) l = l + 1) ∧
  (∀ (c : Option MediaRecord) (l : Nat), l < 600 → (∀ r, c = some r → r.spares.length ≤ 16) →
    1 ≤ Machine.translate c l ∧ Machine.translate c l ≤ 616)

/-- The parameter table (R45, R138): each written value is brought into range, the sixteen intervals are conditioned in
index order and never increase; the defaults, which are already conditioned; what a move latches, what READ PARAMETERS
returns, and that a written value is taken and a port reset leaves the table. That one command brings the bytes still to
come of the phase is the model's: log 3. -/
def Obligations.WrittenParametersAreConditioned : Prop :=
  (∀ b : List Byte,
    let q := paramsOf b
    q.entries = max 1 (min 16 (byteAt b 0)) ∧
    q.minInterval = max 500 (min 5000 (wordAt b 33)) ∧
    q.settle = max 5000 (min 50000 (wordAt b 35)) ∧
    q.lead = max 1 (min 4 (byteAt b 37)) ∧
    q.defaultRetry = min 7 (byteAt b 38) ∧
    q.standbyLimit = byteAt b 39 ∧
    q.intervals.length = 16 ∧
    q.intervals[0]? = some (max q.minInterval (min 20000 (wordAt b 1))) ∧
    (∀ i, i < 15 → q.intervals[i + 1]? =
      some (max q.minInterval (min (q.intervals.getD i 0) (wordAt b (1 + 2 * (i + 1)))))) ∧
    (∀ i, i < 15 → q.intervals.getD (i + 1) 0 ≤ q.intervals.getD i 0) ∧
    (∀ x ∈ q.intervals, q.minInterval ≤ x ∧ x ≤ 20000)) ∧
  (∀ (r : ResetReading) (s t : State), exec (.powerOnReset r) s = .next t →
    t.params.entries = 8 ∧ t.params.minInterval = 1400 ∧ t.params.settle = 15000 ∧
    t.params.lead = 2 ∧ t.params.defaultRetry = 3 ∧ t.params.standbyLimit = 30 ∧
    t.params.intervals =
      [5000, 3500, 2700, 2200, 1900, 1700, 1550, 1450, 1450, 1450, 1450, 1450, 1450, 1450, 1450, 1450] ∧
    paramsOf t.params.bytes = t.params) ∧
  (∀ s : State, s.latchTable = s.params.intervals.take s.params.entries) ∧
  (∀ (s : State) (p : Port) (blk : Block), s.delivers p 0x31 blk = true → s.supply.state = .high →
    ∃ t, exec (.readParameters p blk) s = .next t ∧
      (t.link p).outPhase = byte s.params.entries :: (s.params.intervals.flatMap word16 ++ word16 s.params.minInterval ++
        word16 s.params.settle ++
        [byte s.params.lead, byte s.params.defaultRetry, byte s.params.standbyLimit])) ∧
  (∀ (s : State) (p : Port) (bytes : List Byte), 1 ≤ bytes.length → bytes.length ≤ 40 →
    (s.ctx p).linkPresent = true → (s.link p).state = .dataIn → (s.link p).work = .parameters →
    (s.link p).counter + bytes.length = (s.link p).expected →
    ∃ t, exec (.parameterPhaseComplete p bytes) s = .next t ∧ t.params = paramsOf ((s.link p).received ++ bytes)) ∧
  (∀ (s t : State) (p : Port), exec (.portReset p) s = .next t → t.params = s.params)

/-! ### Operations that the commands share -/

/-- A composed response: the link enters RESPONSE_OUT with the eight bytes and the stall timer, and a refusal becomes
the port's last refusal; with an outbound phase, its bytes are kept and its length is the detail; an inbound phase
begins with its length and gap timer. Nothing else changes. The codes of the outcomes and of the failure causes (13.1). -/
def Obligations.AnswersAreComposed : Prop :=
  (∀ (s : State) (p : Port) (code tag : Byte) (work : LinkWork),
    (∀ (o : Outcome) (detail : List Byte), s.respond p code tag o detail = s.updCtx p fun c =>
      { c with
        lastRefusal := if o = .done ∨ o = .taken then c.lastRefusal else some o
        link := ⟨.responseOut, 0, 8, some ⟨s.time, 100000⟩, [],
          [code, tag, byte o.code] ++ detail ++ List.replicate (5 - detail.length) 0, [], .plain, c.link.strobe⟩ }) ∧
    (∀ bytes : List Byte, s.respondWith p code tag bytes work = s.updCtx p fun c =>
      { c with link := ⟨.responseOut, 0, 8, some ⟨s.time, 100000⟩, [],
          [code, tag, 0, byte (bytes.length / 256), byte bytes.length, 0, 0, 0], bytes, work, c.link.strobe⟩ }) ∧
    (∀ n : Nat, s.beginPhase p n work = s.updCtx p fun c =>
      { c with link := ⟨.dataIn, 0, n, some ⟨s.time, 100000⟩, [], [], [], work, c.link.strobe⟩ })) ∧
  ([Outcome.done, .taken, .unknown, .badParameter, .tagInUse, .supplyLow, .jammed, .noMedium, .mediaChanged,
      .ejectPending, .reserved, .notHolder, .locked, .writeProtected, .blankMedium, .busy, .queueFull, .noBuffers, .noSpare,
      .tooLate, .noSuchTag, .dataTimeout].map Outcome.code =
    [0x00, 0x01, 0x10, 0x11, 0x12, 0x13, 0x14, 0x15, 0x16, 0x17, 0x18, 0x19, 0x1A, 0x1B, 0x1C, 0x1D, 0x1E, 0x1F, 0x20,
      0x21, 0x22, 0x23]) ∧
  ([Cause.noHeader, .headerCheck, .headMismatch, .sectorMismatch, .dataCheck, .timing, .torn, .speed, .position,
      .supply].map Cause.code = [1, 2, 3, 4, 5, 6, 7, 8, 9, 10])

/-- What follows a change of the drive's state (R29, R82). It touches the idle timer and its count, the standby stop,
the positioner and the carriage, the gate, and what the gate was recording, alone. The idle timer is stopped when an
idle condition fails, and runs otherwise; standby is taken when it is wanted, and heads that are ON_TRACK then retract.
A gate whose law holds for something that writes stays on; else it goes off, the operation, the pass and the current
sector stand, and a field that it had not recorded whole is torn, a sector of a format pass cut (R5, R9; how far it had
come: log 9). -/
def Obligations.IdleJudgementAndGateDrop : Prop :=
  (∀ s : State,
    s.finish = { s with
      spindle := s.finish.spindle, pos := s.finish.pos, carriage := s.finish.carriage, seq := s.finish.seq,
      medium := s.finish.medium, freeCount := s.finish.freeCount } ∧
    (s.idleConditions = true ↔
      s.spindle.state = .atSpeed ∧ s.spindle.faultPending = false ∧ s.spindle.standbyStop = false ∧ s.session = none ∧
      (∀ p, ∀ e ∈ (s.ctx p).queue, e.state ≠ .ready ∧ e.state ≠ .inSession) ∧
      (∀ p m, (s.ctx p).maint = some m → m.outcome ≠ none) ∧
      (s.pos.state = .onTrack ∨ s.pos.state = .unloaded) ∧ s.custody.state ≠ .mounting) ∧
    (s.idleConditions = false →
      s.finish.spindle = { s.spindle with idleCount := 0, idleTimer := none } ∧ s.finish.pos = s.pos ∧
      s.finish.carriage = s.carriage) ∧
    (s.idleConditions = true → s.spindle.idleTimer = none → s.spindle.standbyFlag = false →
      s.finish.spindle = { s.spindle with idleCount := 0, idleTimer := some ⟨s.time, 1000000⟩ } ∧
      s.finish.pos = s.pos ∧ s.finish.carriage = s.carriage) ∧
    (s.idleConditions = true → s.spindle.idleTimer ≠ none → s.spindle.standbyFlag = false →
      (s.params.standbyLimit = 0 ∨ s.spindle.idleCount < 10 * s.params.standbyLimit) →
      s.finish.spindle = s.spindle ∧ s.finish.pos = s.pos ∧ s.finish.carriage = s.carriage) ∧
    (s.idleConditions = true → (s.spindle.standbyFlag = true ∨
        s.params.standbyLimit ≠ 0 ∧ s.spindle.idleTimer ≠ none ∧ 10 * s.params.standbyLimit ≤ s.spindle.idleCount) →
      s.finish.spindle = { s.spindle with standbyStop := true, idleCount := 0, idleTimer := none } ∧
      s.finish.pos = (if s.pos.state = .onTrack then s.beginRetract.pos else s.pos)) ∧
    (s.seq.gate = false → s.finish.seq = s.seq ∧ s.finish.medium = s.medium ∧ s.finish.freeCount = s.freeCount) ∧
    (s.finish.seq.gate = true → s.finish.gateLaw = true ∧ s.finish.writeServed = true ∧ s.finish.seq = s.seq ∧
      s.finish.medium = s.medium)) ∧
  (∀ s : State,
    let stopping : State := { s with
      spindle := { s.spindle with standbyStop := true, idleCount := 0, idleTimer := none } }
    let judged : State :=
      if s.idleConditions = false then { s with spindle := { s.spindle with idleCount := 0, idleTimer := none } }
      else if s.spindle.standbyFlag = true ∨ s.params.standbyLimit ≠ 0 ∧ s.spindle.idleTimer ≠ none ∧
          10 * s.params.standbyLimit ≤ s.spindle.idleCount then
        if s.pos.state = .onTrack then stopping.beginRetract else stopping
      else if s.spindle.idleTimer = none then { s with
        spindle := { s.spindle with idleCount := 0, idleTimer := some ⟨s.time, 1000000⟩ } }
      else s
    let lawful := judged.spindle.state = .atSpeed ∧ judged.pos.state = .onTrack ∧ judged.pos.confidence = .known ∧
      s.supply.state = .high ∧ s.custody.protect = some .writable ∧
      (s.seq.pass ≠ none ∨ ∃ o, s.seq.op = some o ∧ (o.kind = .write ∨ o.kind = .recordWrite))
    let off : State := { judged with seq := { s.seq with gate := false } }
    let head := match s.session with | none => 0 | some x => x.head
    let n := s.freeCount
    (s.seq.gate = false ∨ lawful → s.finish = judged) ∧
    (s.seq.gate = true → ¬ lawful →
      (∀ o, s.seq.op = some o →
        let tears := (o.kind = .write ∨ o.kind = .recordWrite) ∧ o.recorded = false
        (tears → s.finish = { off.setImage head o.sector { off.image head o.sector with data := .torn n } with
          freeCount := n + 1 }) ∧
        (¬ tears → s.finish = off)) ∧
      (s.seq.op = none →
        (∀ f k, s.seq.pass = some f → s.seq.current = some k → s.finish =
          { off.setImage head k ⟨.cut n, .torn n, ⟨.cut n, .cut n, .cut n⟩⟩ with freeCount := n + 1 }) ∧
        (s.seq.pass = none ∨ s.seq.current = none → s.finish = off))))

/-- A spin request (R19): not taken and not remembered with the supply not HIGH; it starts a stopped spindle, and is
remembered by the restart flag while the spindle brakes or is about to. -/
def Obligations.SpinRequestByState : Prop :=
  ∀ s : State,
    (s.supply.state ≠ .high → s.spinRequest = s) ∧
    (s.supply.state = .high →
      (s.spindle.state = .stopped → s.spinRequest = { s with spindle := { s.spindle with
        state := .starting, duty := 255, lastIndex := none, period := none, goodCount := 0, badCount := 0,
        restartFlag := false, firstIndexTimer := some ⟨s.time, 2000000⟩, lockTimer := some ⟨s.time, 10000000⟩,
        absenceTimer := none, regainTimer := none, quietTimer := none } }) ∧
      ((s.spindle.state = .starting ∨ s.spindle.state = .coasting ∨
          ((s.spindle.state = .locking ∨ s.spindle.state = .atSpeed) ∧ s.spindle.faultPending = false ∧
            s.spindle.standbyStop = false)) → s.spinRequest = s) ∧
      ((s.spindle.state = .braking ∨
          ((s.spindle.state = .locking ∨ s.spindle.state = .atSpeed) ∧
            (s.spindle.faultPending = true ∨ s.spindle.standbyStop = true))) →
        s.spinRequest = { s with spindle := { s.spindle with restartFlag := true } }))

/-! ### Station commands -/

/-- A block is delivered when the link is present and IDLE, or has taken a beginning of that block; a block that the
link cannot take changes nothing. The model's reading of a row as a whole block: log 3. A delivered block restarts the
reservation's idle timer when its port is the holder, and does nothing else of itself. -/
def Obligations.BlocksAreDelivered : Prop :=
  (∀ (c : Instr) (s : State) (p : Port) (code : Byte) (blk : Block),
    commandBlock c = some (p, blk) → commandCode c = some code → c.wf = true →
    (s.delivers p code blk = true ↔ (s.ctx p).linkPresent = true ∧
      ((s.link p).state = .idle ∨ (s.link p).state = .receivingBlock ∧ (s.link p).received.length < 8 ∧
        ∃ rest, (s.link p).received ++ rest = blockBytes code blk)) ∧
    (s.delivers p code blk = false → exec c s = .next s)) ∧
  (∀ (s : State) (p : Port),
    (∀ r, s.reservation = some r → r.holder = p →
      let timer : Option Timer := if r.limit = 0 then none else some ⟨s.time, r.limit * 1000000⟩
      s.restartLimit p = { s with reservation := some { r with timer := timer } }) ∧
    ((∀ r, s.reservation = some r → r.holder ≠ p) → s.restartLimit p = s))

/-- A code that names no command is refused UNKNOWN, with tag 0 and no other effect. -/
def Obligations.UnknownCodeIsRefused : Prop :=
  ∀ (s : State) (p : Port) (code : Byte) (blk : Block), code ∉ commandCodes → s.delivers p code blk = true →
    exec (.unknownCommand p code blk) s = .next ((s.restartLimit p).respond p code 0 .unknown [])

/-- Every command but the five that pass is refused SUPPLY_LOW while the supply is not HIGH, after the checks of its
fields and of its tag, and has no other effect. -/
def Obligations.SupplyLowRefusesCommands : Prop :=
  ∀ (s : State) (p : Port) (b : Block), s.supply.state ≠ .high →
    (∀ c ∈ [(Instr.acceptMedium p b, (0x04 : Byte)), (.release p b, 0x09), (.lock p b, 0x0A), (.spinUp p b, 0x10),
        (.spinDown p b, 0x11), (.readMediaRecord p b, 0x28), (.setParameters p b, 0x30), (.readParameters p b, 0x31)],
      s.delivers p c.2 b = true → exec c.1 s = .next ((s.restartLimit p).respond p c.2 0 .supplyLow [])) ∧
    (∀ c ∈ [(Instr.cancel p b, (0x1C : Byte)), (.writeMediaRecord p b, 0x29)],
      s.delivers p c.2 b = true → exec c.1 s = .next ((s.restartLimit p).respond p c.2 b.tag .supplyLow [])) ∧
    (∀ c ∈ [(Instr.read p b, (0x18 : Byte)), (.write p b, 0x19), (.verify p b, 0x1A)],
      s.delivers p c.2 b = true → TransferFields b → (∀ e ∈ (s.ctx p).queue, e.tag ≠ b.tag) →
      exec c.1 s = .next ((s.restartLimit p).respond p c.2 b.tag .supplyLow [])) ∧
    (∀ c ∈ [(Instr.reserve p b, (0x08 : Byte)), (.eject p b, 0x20)],
      s.delivers p c.2 b = true → b.mode = 1 ∨ b.mode = 2 →
      exec c.1 s = .next ((s.restartLimit p).respond p c.2 0 .supplyLow [])) ∧
    (s.delivers p 0x2A b = true → b.track ≤ 599 →
      exec (.mapSpare p b) s = .next ((s.restartLimit p).respond p 0x2A b.tag .supplyLow [])) ∧
    (s.delivers p 0x2B b = true → b.track ≤ 616 → b.head ≤ 1 →
      exec (.formatTrack p b) s = .next ((s.restartLimit p).respond p 0x2B b.tag .supplyLow []))

/-- The commands that only report: STATUS with its record (the latch and write-protect sensors as they read), FETCH
NOTICE with the head record or a record marked none, READ MEDIA RECORD with the copy, READ PARAMETERS with the table.
The 24 bytes of the status record, the eight bytes of a notice record and its details (R167). STATUS's sensor operands:
log 21. That link present and drive time are not sent: log 34; which level of a sensor or of the comparator is sent as
1: log 35. -/
def Obligations.ReportingCommands : Prop :=
  (∀ (s : State) (p : Port) (b : Block),
    let u := s.restartLimit p
    (s.delivers p 0x01 b = true → ∀ r : SensorReading,
      let v : State := { u with pins := { u.pins with latch := r.latched, writeProtect := r.writeProtect } }
      exec (.status p b r) s = .next (v.respondWith p 0x01 0 (v.statusRecord p) .plain) ∧
        (v.statusRecord p).length = 24) ∧
    (s.delivers p 0x02 b = true →
      ((s.ctx p).notices = [] → exec (.fetchNotice p b) s = .next (u.updLink p fun l =>
        ⟨.responseOut, 0, 8, some ⟨s.time, 100000⟩, [], [0, 0, 0, 0, 0, 0, 0, 0], [], .plain, l.strobe⟩)) ∧
      (∀ n rest, (s.ctx p).notices = n :: rest → exec (.fetchNotice p b) s = .next (u.updLink p fun l =>
        ⟨.responseOut, 0, 8, some ⟨s.time, 100000⟩, [], n.bytes, [], .notice, l.strobe⟩))) ∧
    (s.delivers p 0x28 b = true → s.supply.state = .high →
      s.custody.state ≠ .empty → s.custody.state ≠ .inserted → s.custody.state ≠ .mounting →
      (∀ r, s.copy = some r → exec (.readMediaRecord p b) s = .next (u.respondWith p 0x28 0 r.bytes .plain)) ∧
      (s.copy = none → exec (.readMediaRecord p b) s = .next (u.respond p 0x28 0 .blankMedium []))) ∧
    (s.delivers p 0x28 b = true → s.supply.state = .high →
      s.custody.state = .empty ∨ s.custody.state = .inserted ∨ s.custody.state = .mounting →
      exec (.readMediaRecord p b) s = .next (u.respond p 0x28 0 .noMedium [])) ∧
    (s.delivers p 0x31 b = true → s.supply.state = .high →
      exec (.readParameters p b) s = .next (u.respondWith p 0x31 0 s.params.bytes .plain))) ∧
  (∀ (v : State) (p : Port),
    let c := v.ctx p
    let u := v.custody
    let flag (b : Bool) (n : Nat) : Nat := if b then n else 0
    let high (n : Nat) : Byte := byte (n / 256)
    let period := match v.spindle.period with | none => 0 | some n => min n 65535
    let counter : BitVec 16 := BitVec.ofInt 16 v.pos.counter
    let track := match v.session with | none => 0 | some x => x.track
    (c.pendingSet.map fun n => n.body.priority).Pairwise (· < ·) →
    ∃ kinds : Byte,
      (∀ k, k < 8 → (kinds.getLsbD k = true ↔ ∃ n ∈ c.pendingSet, n.body.priority = k + 1)) ∧
      v.statusRecord p = [
        byte ((match v.supply.state with | .high => 0 | .low => 1 | .recovering => 2) + flag v.pins.comparatorHigh 4 +
          flag v.pins.present 8 + flag v.pins.latch 16 + flag v.pins.writeProtect 32 + flag u.latched 64 +
          flag v.seq.gate 128),
        byte ((match u.state with
            | .empty => 0 | .inserted => 1 | .mounting => 2 | .mounted => 3 | .blank => 4 | .ejectPending => 5
            | .unmounting => 6 | .releasing => 7 | .jammed => 8) +
          16 * (match u.step with
            | none => 0 | some .latching => 1 | some .spinning => 2 | some .loading => 3 | some .recalibrating => 4
            | some .readingRecord => 5)),
        byte u.generation,
        byte ((match u.protect with | none => 0 | some .writable => 1 | some .isProtected => 2) + 4 * u.jamCount +
          16 * (match u.lastMount with
            | none => 0 | some .mounted => 1 | some .blank => 2 | some (.rejected .latch) => 3
            | some (.rejected .spindle) => 4 | some (.rejected .position) => 5) + flag v.spindle.standbyFlag 128),
        byte ((match v.spindle.state with
            | .stopped => 0 | .starting => 1 | .locking => 2 | .atSpeed => 3 | .braking => 4 | .coasting => 5) +
          8 * (match v.spindle.lastFault with
            | none => 0 | some .noIndex => 1 | some .noLock => 2 | some .indexLost => 3 | some .notRegained => 4)),
        byte v.spindle.duty,
        high period, byte period,
        high v.spindle.revolutions.toNat, byte v.spindle.revolutions.toNat,
        byte ((match v.pos.state with
            | .unloaded => 0 | .loading => 1 | .recalibrating => 2 | .seeking => 3 | .settling => 4 | .onTrack => 5
            | .retracting => 6 | .emergencyRetract => 7) + flag (decide (v.pos.confidence = .uncertain)) 8 +
          (match v.session with
            | none => 0
            | some x => 16 + 32 * x.head + flag (decide (x.owner = .drive)) 64 +
                flag (x.speedSuspended || x.positionSuspended) 128)),
        counter.extractLsb' 8 8, counter.extractLsb' 0 8,
        high track, byte track,
        byte ((v.pool.filter fun h => h == none).length + flag c.lockHeld 32 + flag (v.ctx p.other).lockHeld 64),
        byte c.acknowledged,
        byte (c.queue.length + 16 * (v.pool.filter fun h => h == some p).length),
        byte ((match c.maint with | none => 0 | some m => if m.outcome = none then 1 else 2) +
          (match v.reservation with
            | none => 0
            | some r => (if r.holder = p then 4 else 8) + flag (decide (r.mode = .write)) 16)),
        byte (match v.reservation with | none => 0 | some r => r.limit),
        byte (match c.lastRefusal with | none => 0 | some o => o.code),
        byte (c.notices.length + 16 * c.held.length),
        kinds,
        byte (flag c.conditions.speedLost 1 + flag c.conditions.spindleFault 2 + flag c.conditions.positionUncertain 4 +
          flag c.conditions.recalFailed 8 + flag c.conditions.supplyLow 16 + flag c.conditions.ejectJammed 32)]) ∧
  (∀ n : Notice,
    let sector (f : Option Nat) : Nat := f.getD 31
    let fields : NoticeBody → Nat × Nat × Nat := fun body => match body with
      | .supplyLow => (1, 0, 0)
      | .supplyRecovered => (1, 1, 0)
      | .mediumMounted => (2, 0, 0)
      | .mediumBlank => (2, 1, 0)
      | .mediumRejected r => (2, 2, match r with | .latch => 1 | .spindle => 2 | .position => 3)
      | .mediumRemoved c => (2, 3, match c with | .station => 1 | .panel => 2 | .forced => 3 | _ => 0)
      | .ejectAsked .lock => (3, 1, 0)
      | .ejectAsked .reservation => (3, 2, 0)
      | .ejectAsked .both => (3, 3, 0)
      | .reservationTaken m => (4, 0, match m with | .exclusive => 1 | .write => 2)
      | .reservationExpired => (4, 1, 0)
      | .reservationFreed => (4, 2, 0)
      | .reservationBroken => (4, 3, 0)
      | .spindleFault c => (5, 0, match c with | .noIndex => 1 | .noLock => 2 | .indexLost => 3 | .notRegained => 4)
      | .spindleSpeedLost => (5, 1, 0)
      | .positionRecalFailed => (6, 0, 0)
      | .maintenanceDone k o =>
        (match k with | .formatTrack => 7 | .writeMediaRecord => 9 | .mapSpare => 10,
          match o with | .done _ => 0 | .failed c => c.code,
          match o with | .done d => d % 256 | .failed _ => 0)
      | .transferDone .done f => (8, 0, sector f)
      | .transferDone (.failed (some k) c) (some f) => (8, c.code, f + 32 * ((k + 20 - f) % 20))
      | .transferDone (.failed none c) (some f) => (8, c.code, f)
      | .transferDone (.failed _ c) none => (8, c.code, 31)
      | .transferDone (.cancelled m) f => if m ≤ 7 then (8, 0x0B, sector f + 32 * m) else (8, 0x0C, sector f)
    n.bytes = [byte ((fields n.body).1 + 16 * (fields n.body).2.1), n.time.extractLsb' 24 8, n.time.extractLsb' 16 8,
      n.time.extractLsb' 8 8, n.time.extractLsb' 0 8, byte n.generation, n.tag.getD 0, byte (fields n.body).2.2])

/-- ACKNOWLEDGE CONDITIONS: each flag that the mask names is cleared, and set again if its cause persists; the others
stay. It is never refused, and the response carries the flags. That SPEED_LOST is cleared even just after a speed loss
is the model's reading of R151 against R152: log 38. -/
def Obligations.AcknowledgeConditionsByMask : Prop :=
  ∀ (s : State) (p : Port) (b : Block), s.delivers p 0x03 b = true →
    ∃ k : Conditions,
      exec (.acknowledgeConditions p b) s = .next
        (((s.restartLimit p).updCtx p fun c => { c with conditions := k }).respond p 0x03 0 .done [byte k.code]) ∧
      (let o := (s.ctx p).conditions
       k.speedLost = (if b.b2.getLsbD 0 then false else o.speedLost) ∧
       k.spindleFault = (if b.b2.getLsbD 1 then s.faultOutstanding else o.spindleFault) ∧
       k.positionUncertain =
         (if b.b2.getLsbD 2 then decide (s.pos.confidence = .uncertain) else o.positionUncertain) ∧
       k.recalFailed = (if b.b2.getLsbD 3 then s.recalOutstanding else o.recalFailed) ∧
       k.supplyLow = (if b.b2.getLsbD 4 then !decide (s.supply.state = .high) else o.supplyLow) ∧
       k.ejectJammed = (if b.b2.getLsbD 5 then decide (s.custody.state = .jammed) else o.ejectJammed)) ∧
      (byte k.code).getLsbD 0 = k.speedLost ∧ (byte k.code).getLsbD 1 = k.spindleFault ∧
      (byte k.code).getLsbD 2 = k.positionUncertain ∧ (byte k.code).getLsbD 3 = k.recalFailed ∧
      (byte k.code).getLsbD 4 = k.supplyLow ∧ (byte k.code).getLsbD 5 = k.ejectJammed

/-- ACCEPT MEDIUM, LOCK and UNLOCK: the one field each writes, and the refusals of the first two in the decoder's order;
UNLOCK has none. -/
def Obligations.AcceptLockAndUnlock : Prop :=
  ∀ (s : State) (p : Port) (b : Block),
    let u := s.restartLimit p
    (s.delivers p 0x04 b = true → s.supply.state = .high → s.custody.state = .mounted ∨ s.custody.state = .blank →
      exec (.acceptMedium p b) s = .next ((u.updCtx p fun c => { c with acknowledged := s.custody.generation }).respond p
        0x04 0 .done [byte s.custody.generation])) ∧
    (s.delivers p 0x0A b = true → s.supply.state = .high →
      s.custody.state = .mounted ∨ s.custody.state = .blank ∨ s.custody.state = .mounting →
      ((s.ctx p).acknowledged = s.custody.generation → s.FreeFor p →
        exec (.lock p b) s = .next ((u.updCtx p fun c => { c with lockHeld := true }).respond p 0x0A 0 .done [])) ∧
      ((s.ctx p).acknowledged ≠ s.custody.generation →
        exec (.lock p b) s = .next (u.respond p 0x0A 0 .mediaChanged [])) ∧
      ((s.ctx p).acknowledged = s.custody.generation → ¬ s.FreeFor p →
        exec (.lock p b) s = .next (u.respond p 0x0A 0 .reserved []))) ∧
    (let leaving := s.custody.state = .ejectPending ∨ s.custody.state = .unmounting ∨ s.custody.state = .releasing
     (s.delivers p 0x04 b = true → s.supply.state = .high →
      let refused (o : Outcome) : Prop := exec (.acceptMedium p b) s = .next (u.respond p 0x04 0 o [])
      (s.custody.state = .jammed → refused .jammed) ∧
      (s.custody.state = .empty ∨ s.custody.state = .inserted ∨ s.custody.state = .mounting → refused .noMedium) ∧
      (leaving → refused .ejectPending)) ∧
     (s.delivers p 0x0A b = true → s.supply.state = .high →
      let refused (o : Outcome) : Prop := exec (.lock p b) s = .next (u.respond p 0x0A 0 o [])
      (s.custody.state = .jammed → refused .jammed) ∧
      (s.custody.state = .empty ∨ s.custody.state = .inserted → refused .noMedium) ∧
      (leaving → (s.ctx p).acknowledged ≠ s.custody.generation → refused .mediaChanged) ∧
      (leaving → (s.ctx p).acknowledged = s.custody.generation → refused .ejectPending))) ∧
    (s.delivers p 0x0B b = true →
      exec (.unlock p b) s = .next ((u.updCtx p fun c => { c with lockHeld := false }).respond p 0x0B 0 .done []))

/-- RESERVE and RELEASE: the record, the notice to the other port, and the judgement of the READY entries that a change
of reservation brings; a RESERVE that changes neither holder nor mode brings neither. Refused while the other port holds
it, and, for RELEASE, while nobody does; a RESERVE whose mode is neither is refused BAD_PARAMETER first. -/
def Obligations.ReserveAndRelease : Prop :=
  (∀ (s : State) (p : Port) (b : Block) (m : ReserveMode), s.supply.state = .high →
    let u := s.restartLimit p
    let timer : Option Timer := if b.limit = 0 then none else some ⟨s.time, b.limit * 1000000⟩
    let v : State := { s with reservation := some ⟨p, m, b.limit, timer⟩ }
    (s.delivers p 0x08 b = true → b.mode = m.code →
      (s.FreeFor p → (∀ r, s.reservation = some r → r.mode ≠ m) → exec (.reserve p b) s = .next
        (((v.post p.other (.reservationTaken m)).judgeJoins.respond p 0x08 0 .done [byte m.code]).finish)) ∧
      (∀ r, s.reservation = some r → r.holder = p → r.mode = m → exec (.reserve p b) s = .next
        ((v.respond p 0x08 0 .done [byte m.code]).finish)) ∧
      (¬ s.FreeFor p → exec (.reserve p b) s = .next (u.respond p 0x08 0 .reserved []))) ∧
    (s.delivers p 0x09 b = true →
      (∀ r, s.reservation = some r → r.holder = p → exec (.release p b) s = .next
        (((({ s with reservation := none } : State).post p.other .reservationFreed).judgeJoins.respond p 0x09 0 .done
          []).finish)) ∧
      ((∀ r, s.reservation = some r → r.holder ≠ p) →
        exec (.release p b) s = .next (u.respond p 0x09 0 .notHolder [])))) ∧
  (∀ (s : State) (p : Port) (b : Block), s.delivers p 0x08 b = true → b.mode ≠ 1 → b.mode ≠ 2 →
    exec (.reserve p b) s = .next ((s.restartLimit p).respond p 0x08 0 .badParameter []))

/-- SPIN UP clears the standby flag and raises a spin request; SPIN DOWN sets the standby flag; and what each is refused
for, in the decoder's order. -/
def Obligations.SpinUpAndSpinDown : Prop :=
  ∀ (s : State) (p : Port) (b : Block), s.supply.state = .high →
    let u := s.restartLimit p
    (s.delivers p 0x10 b = true →
      s.custody.state = .mounting ∨ s.custody.state = .mounted ∨ s.custody.state = .blank ∨
        s.custody.state = .ejectPending →
      s.OpenTo p → exec (.spinUp p b) s = .next
        ((({ u with spindle := { u.spindle with standbyFlag := false } } : State).spinRequest.respond p 0x10 0 .done
          []).finish)) ∧
    (s.delivers p 0x11 b = true →
      s.custody.state = .mounting ∨ s.custody.state = .mounted ∨ s.custody.state = .blank →
      s.FreeFor p → exec (.spinDown p b) s = .next
        ((({ u with spindle := { u.spindle with standbyFlag := true } } : State).respond p 0x11 0 .done []).finish)) ∧
    (s.delivers p 0x10 b = true →
      let refused (o : Outcome) : Prop := exec (.spinUp p b) s = .next (u.respond p 0x10 0 o [])
      (s.custody.state = .jammed → refused .jammed) ∧
      (s.custody.state = .empty ∨ s.custody.state = .inserted → refused .noMedium) ∧
      (s.custody.state = .unmounting ∨ s.custody.state = .releasing → refused .ejectPending) ∧
      (s.custody.state = .mounting ∨ s.custody.state = .mounted ∨ s.custody.state = .blank ∨
        s.custody.state = .ejectPending → ¬ s.OpenTo p → refused .reserved)) ∧
    (s.delivers p 0x11 b = true →
      let refused (o : Outcome) : Prop := exec (.spinDown p b) s = .next (u.respond p 0x11 0 o [])
      (s.custody.state = .jammed → refused .jammed) ∧
      (s.custody.state = .empty ∨ s.custody.state = .inserted → refused .noMedium) ∧
      (s.custody.state = .ejectPending ∨ s.custody.state = .unmounting ∨ s.custody.state = .releasing →
        refused .ejectPending) ∧
      (s.custody.state = .mounting ∨ s.custody.state = .mounted ∨ s.custody.state = .blank →
        ¬ s.FreeFor p → refused .reserved))

/-- READ, VERIFY and WRITE accepted (R58, R59): the entry at the tail with what the block gives, its buffers taken from
those that are FREE, the standby flag cleared; a READ or VERIFY is READY at once, raises a spin request, is judged for
joining and answered TAKEN; a WRITE is RECEIVING, and its phase of 512 bytes a sector begins. -/
def Obligations.TransferAccepted : Prop :=
  ∀ (s : State) (p : Port) (b : Block), TransferFields b → (∀ e ∈ (s.ctx p).queue, e.tag ≠ b.tag) →
    s.supply.state = .high → s.MediumKnownTo p → (s.ctx p).queue.length < 8 → s.TablesWhole →
    let u := s.restartLimit p
    let first : FirstSector := if b.b5 = 0xFF then .earliest else .absolute b.b5.toNat
    let retry := if b.b7 = 0xFF then s.params.defaultRetry else b.b7.toNat
    let entry (op : XferOp) (bufs : List Nat) (st : EntryState) : Entry :=
      ⟨b.tag, op, b.track, b.head, first, b.count, retry, bufs, s.custody.generation, st, none, none, false, false,
        none, none, none, false⟩
    let accepted (e : Entry) (pool : List (Option Port)) : State :=
      { u.updCtx p fun c => { c with queue := c.queue ++ [e] } with
        pool := pool, spindle := { u.spindle with standbyFlag := false } }
    (s.delivers p 0x1A b = true → s.OpenTo p → exec (.verify p b) s = .next
      ((((accepted (entry .verify [] .ready) s.pool).spinRequest.judgeJoin p b.tag).respond p 0x1A b.tag .taken
        []).finish)) ∧
    (b.count ≤ s.freeBuffers → s.heldBuffers p + b.count ≤ 12 →
      ∃ (bufs : List Nat) (pool : List (Option Port)),
        bufs.length = b.count ∧ bufs.Nodup ∧ pool.length = s.pool.length ∧
        (∀ i ∈ bufs, i < 16 ∧ s.pool.getD i (some .a) = none) ∧
        (∀ i, i < s.pool.length → pool[i]? = if i ∈ bufs then some (some p) else s.pool[i]?) ∧
        (s.delivers p 0x18 b = true → s.OpenTo p → exec (.read p b) s = .next
          ((((accepted (entry .read bufs .ready) pool).spinRequest.judgeJoin p b.tag).respond p 0x18 b.tag .taken
            []).finish)) ∧
        (s.delivers p 0x19 b = true → s.FreeFor p → s.custody.protect ≠ some .isProtected →
          exec (.write p b) s = .next
            (((accepted (entry .write bufs .receiving) pool).beginPhase p (512 * b.count) (.writeData b.tag)).finish)))

/-- What a READ, a VERIFY or a WRITE is refused for, in the decoder's order from the fields to the buffers: each refusal
stands when no earlier one does, and has no other effect. -/
def Obligations.TransferRefusalsInOrder : Prop :=
  ∀ (s : State) (p : Port) (b : Block) (op : XferOp) (c : Instr) (code : Byte),
    (op = .read ∧ c = .read p b ∧ code = 0x18 ∨ op = .write ∧ c = .write p b ∧ code = 0x19 ∨
      op = .verify ∧ c = .verify p b ∧ code = 0x1A) →
    s.delivers p code b = true →
    let refused (o : Outcome) : Prop := exec c s = .next ((s.restartLimit p).respond p code b.tag o [])
    (¬ TransferFields b → refused .badParameter) ∧
    (TransferFields b →
      ((∃ e ∈ (s.ctx p).queue, e.tag = b.tag) → refused .tagInUse) ∧
      ((∀ e ∈ (s.ctx p).queue, e.tag ≠ b.tag) →
        (s.supply.state ≠ .high → refused .supplyLow) ∧
        (s.supply.state = .high →
          (s.custody.state = .jammed → refused .jammed) ∧
          (s.custody.state = .empty ∨ s.custody.state = .inserted ∨ s.custody.state = .mounting → refused .noMedium) ∧
          (s.custody.state = .ejectPending ∨ s.custody.state = .unmounting ∨ s.custody.state = .releasing →
            (s.ctx p).acknowledged ≠ s.custody.generation → refused .mediaChanged) ∧
          (s.custody.state = .ejectPending ∨ s.custody.state = .unmounting ∨ s.custody.state = .releasing →
            (s.ctx p).acknowledged = s.custody.generation → refused .ejectPending) ∧
          (s.custody.state = .mounted ∨ s.custody.state = .blank →
            (s.ctx p).acknowledged ≠ s.custody.generation → refused .mediaChanged) ∧
          (s.MediumKnownTo p →
            (op ≠ .write → ¬ s.OpenTo p → refused .reserved) ∧
            (op = .write → ¬ s.FreeFor p → refused .reserved) ∧
            (op = .write → s.FreeFor p → s.custody.protect = some .isProtected → refused .writeProtected) ∧
            (op ≠ .write ∧ s.OpenTo p ∨ op = .write ∧ s.FreeFor p ∧ s.custody.protect ≠ some .isProtected →
              (8 ≤ (s.ctx p).queue.length → refused .queueFull) ∧
              ((s.ctx p).queue.length < 8 → op ≠ .verify →
                (s.freeBuffers < b.count ∨ 12 < s.heldBuffers p + b.count) → refused .noBuffers))))))

/-- FETCH DATA by the entry that its tag finds: a DONE READ whose data is unfetched is answered with its bytes, buffer
after buffer; an unfinished READ is BUSY; anything else is NO_SUCH_TAG. -/
def Obligations.FetchDataByEntry : Prop :=
  ∀ (s : State) (p : Port) (b : Block), s.delivers p 0x1B b = true →
    let u := s.restartLimit p
    (s.entry? p b.tag = none → exec (.fetchData p b) s = .next (u.respond p 0x1B b.tag .noSuchTag [])) ∧
    (∀ e, s.entry? p b.tag = some e →
      (e.op = .read → e.state = .receiving ∨ e.state = .ready ∨ e.state = .inSession →
        exec (.fetchData p b) s = .next (u.respond p 0x1B b.tag .busy [])) ∧
      (e.op = .read → e.state = .completeUnnoticed ∨ e.state = .noticed → e.outcome = some .done →
        e.dataFetched = false → exec (.fetchData p b) s = .next
          (u.respondWith p 0x1B b.tag (e.buffers.flatMap s.bufferBytes) (.fetchData b.tag))) ∧
      (e.op ≠ .read ∨ (e.state = .completeUnnoticed ∨ e.state = .noticed) ∧
          (e.outcome ≠ some .done ∨ e.dataFetched = true) →
        exec (.fetchData p b) s = .next (u.respond p 0x1B b.tag .noSuchTag [])))

/-- CANCEL by the entry that its tag finds: a READY entry is removed with its buffers and answered DONE; one being
served has its waiting slots emptied and is answered TAKEN, and completes CANCELLED at once when none of its operations
is in flight; a complete one is TOO_LATE. An entry still RECEIVING is not found: log 29. The cancellation of several
entries (R66): the READY ones complete CANCELLED with 0 sectors, then the others are cancelled as by CANCEL; that port
A's come before port B's, and the READY ones first, is the model's choice: log 16. Which slots are an entry's. -/
def Obligations.CancelByEntry : Prop :=
  (∀ (s : State) (p : Port) (b : Block), s.delivers p 0x1C b = true → s.supply.state = .high →
    let u := s.restartLimit p
    let answers (t : State) (o : Outcome) : Prop :=
      exec (.cancel p b) s = .next ((t.respond p 0x1C b.tag o []).finish)
    (s.entry? p b.tag = none → answers u .noSuchTag) ∧
    (∀ e, s.entry? p b.tag = some e →
      (e.state = .receiving → answers u .noSuchTag) ∧
      (e.state = .ready → answers
        ((u.updCtx p fun c => { c with queue := c.queue.filter fun e => !(e.tag == b.tag) }).assignBuffers e.buffers none)
        .done) ∧
      (e.state = .inSession → e.discard = true → answers u .noSuchTag) ∧
      (e.state = .inSession → e.discard = false → s.hasActiveSlot p b.tag = true → answers
        ((u.emptyWaitingSlots p b.tag).updEntry p b.tag fun e => { e with cancelling := true }) .taken) ∧
      (e.state = .inSession → e.discard = false → s.hasActiveSlot p b.tag = false → answers
        (((u.emptySlots p b.tag).completeEntry p b.tag (.cancelled (s.doneSlots p b.tag))).closeJudgement) .taken) ∧
      (e.state = .completeUnnoticed ∨ e.state = .noticed → answers u .tooLate))) ∧
  (∀ (s : State) (p : Port) (tag : Byte),
    let owns (x : Slot) : Prop := x.owner = some (.port p) ∧ x.tag = some tag
    (s.hasActiveSlot p tag = true ↔ ∃ x ∈ s.slots, owns x ∧ x.state = .active) ∧
    (s.hasOpenSlot p tag = true ↔
      ∃ x ∈ s.slots, owns x ∧ (x.state = .deferred ∨ x.state = .armed ∨ x.state = .active)) ∧
    s.doneSlots p tag = s.slots.countP (fun x => decide (owns x ∧ x.state = .done)) ∧
    s.emptySlots p tag = { s with slots := s.slots.map fun x => if owns x then Slot.blank else x } ∧
    s.emptyWaitingSlots p tag = { s with
      slots := s.slots.map fun x => if owns x ∧ (x.state = .armed ∨ x.state = .deferred) then Slot.blank else x } ∧
    (s.entry? p tag = none → s.removeEntry p tag = s ∧ s.cancelEntry p tag = s) ∧
    (∀ e, s.entry? p tag = some e →
      s.removeEntry p tag =
        (s.updCtx p fun c => { c with queue := c.queue.filter fun e => !(e.tag == tag) }).assignBuffers e.buffers none ∧
      (e.discard = true ∨ e.state ≠ .inSession → s.cancelEntry p tag = s) ∧
      (e.discard = false → e.state = .inSession → s.cancelEntry p tag =
        if s.hasActiveSlot p tag then
          (s.emptyWaitingSlots p tag).updEntry p tag fun e => { e with cancelling := true }
        else ((s.emptySlots p tag).completeEntry p tag (.cancelled (s.doneSlots p tag))).closeJudgement))) ∧
  (∀ (s : State) (pick : Entry → Bool),
    let ready (p : Port) (u : State) : State :=
      ((u.ctx p).queue.filter fun e => decide (e.state = .ready) && pick e).foldl
        (fun v e => v.completeEntry p e.tag (.cancelled 0)) u
    let serving (p : Port) (u : State) : State :=
      ((u.ctx p).queue.filter fun e => decide (e.state = .inSession) && pick e).foldl
        (fun v e => v.cancelEntry p e.tag) u
    s.cancelAll pick = serving .b (serving .a (ready .b (ready .a s))))

/-- EJECT: in JAMMED custody a new release attempt begins; AFTER drops the issuer's lock and enters EJECT_PENDING with a
spin request if an entry is READY; NOW, on an idle drive, drops it and enters UNMOUNTING with a retract request. The
refusals in the decoder's order, and what BUSY for NOW means. -/
def Obligations.EjectByModeAndCustody : Prop :=
  (∀ (s : State) (p : Port) (b : Block), s.delivers p 0x20 b = true → s.supply.state = .high →
    b.mode = 1 ∨ b.mode = 2 →
    let u := s.restartLimit p
    let answers (t : State) : Prop := exec (.eject p b) s = .next ((t.respond p 0x20 0 .taken [b.b2]).finish)
    let refused (o : Outcome) : Prop := exec (.eject p b) s = .next (u.respond p 0x20 0 o [])
    let unlocked := u.updCtx p fun c => { c with lockHeld := false }
    (s.custody.state = .jammed → answers (u.updCustody fun v =>
      { v with state := .releasing, jamCount := 0, releaseTimer := none, attemptDue := true })) ∧
    (s.custody.state = .mounted ∨ s.custody.state = .blank →
      (¬ s.FreeFor p → refused .reserved) ∧
      (s.FreeFor p → (s.ctx p.other).lockHeld = true → refused .locked) ∧
      (s.FreeFor p → (s.ctx p.other).lockHeld = false →
        (b.mode = 1 → s.ejectBusy = true → refused .busy) ∧
        (b.mode = 1 → s.ejectBusy = false → answers ((unlocked.updCustody fun v =>
          { v with state := .unmounting, step := none, ejectCause := .station, stopSent := false,
                   attemptDue := false }).retractRequest)) ∧
        (b.mode = 2 →
          let t := unlocked.updCustody fun v => { v with state := .ejectPending, ejectCause := .station }
          answers (if s.anyEntryIn .ready then t.spinRequest else t))))) ∧
  (∀ (s : State) (p : Port) (b : Block), s.delivers p 0x20 b = true →
    let refused (o : Outcome) : Prop := exec (.eject p b) s = .next ((s.restartLimit p).respond p 0x20 0 o [])
    (b.mode ≠ 1 → b.mode ≠ 2 → refused .badParameter) ∧
    (b.mode = 1 ∨ b.mode = 2 → s.supply.state = .high →
      (s.custody.state = .empty ∨ s.custody.state = .inserted ∨ s.custody.state = .mounting → refused .noMedium) ∧
      (s.custody.state = .ejectPending ∨ s.custody.state = .unmounting ∨ s.custody.state = .releasing →
        refused .ejectPending))) ∧
  (∀ s : State,
    (∀ st, s.anyEntryIn st = true ↔ ∃ p, ∃ e ∈ (s.ctx p).queue, e.state = st) ∧
    (s.ejectBusy = true ↔
      (∃ p, ∃ e ∈ (s.ctx p).queue, e.state = .ready ∨ e.state = .inSession) ∨ s.session ≠ none ∨
      ∃ p m, (s.ctx p).maint = some m ∧ m.outcome = none))

/-- WRITE MEDIA RECORD, MAP SPARE, FORMAT TRACK accepted: the maintenance record, a spin request, and the phase that
begins, the record write or the format pass that is handed on. SET PARAMETERS begins its phase of 40 bytes for the
holder of the reservation in EXCLUSIVE mode. What each is refused for, in the decoder's order (R130, R139), and what
BUSY means. -/
def Obligations.MaintenanceAndSetParameters : Prop :=
  (∀ (s : State) (p : Port) (b : Block), s.supply.state = .high → s.MediumKnownTo p → s.FreeFor p →
    s.holdsIn p .exclusive = true → s.custody.protect ≠ some .isProtected → s.maintBusy p = false →
    let u := s.restartLimit p
    let starting : StartingCustody := if s.custody.state = .blank then .blank else .mounted
    let running (k : MaintKind) (spare : Nat) : State :=
      (u.updCtx p fun c => { c with maint := some ⟨b.tag, k, none, false, starting, spare, 0, 0⟩ }).spinRequest
    (s.delivers p 0x29 b = true → exec (.writeMediaRecord p b) s = .next
      (((running .writeMediaRecord 0).beginPhase p 20 (.mediaRecord b.tag)).finish)) ∧
    (s.delivers p 0x2B b = true → b.track ≤ 616 → b.head ≤ 1 → exec (.formatTrack p b) s = .next
      ((({ running .formatTrack 0 with driveReq := some ⟨.formatPass, b.track, b.head, .maintenance p⟩ } :
        State).respond p 0x2B b.tag .taken []).finish)) ∧
    (s.delivers p 0x2A b = true → b.track ≤ 599 → s.custody.state = .mounted →
      ∀ (r : MediaRecord) (k : Nat) (e : SpareEntry), s.copy = some r → r.spares[k]? = some e → e.state = .free →
        (∀ j f, j < k → r.spares[j]? = some f → f.state ≠ .free) →
        exec (.mapSpare p b) s = .next
          (((({ running .mapSpare k with driveReq := some ⟨.recordWrite, 0, 0, .maintenance p⟩ } : State).storeBuffer
            recordBuffer 0 (mapSpareRecord r k b.track).bytes).respond p 0x2A b.tag .taken []).finish) ∧
        (mapSpareRecord r k b.track).writeCount = (r.writeCount + 1) % 65536 ∧
        (∀ j f, r.spares[j]? = some f → (mapSpareRecord r k b.track).spares[j]? = some
          (if j = k then ⟨.mapped, b.track⟩
           else if f.state = .mapped ∧ f.track = b.track then ⟨.retired, f.track⟩ else f)))) ∧
  (∀ (s : State) (p : Port) (b : Block), s.delivers p 0x30 b = true → s.supply.state = .high → s.FreeFor p →
    let u := s.restartLimit p
    (s.holdsIn p .exclusive = true → exec (.setParameters p b) s = .next (u.beginPhase p 40 .parameters)) ∧
    (s.holdsIn p .exclusive = false → exec (.setParameters p b) s = .next (u.respond p 0x30 0 .notHolder []))) ∧
  (∀ (s : State) (p : Port) (b : Block) (c : Instr) (code : Byte) (bad : Prop),
    (c = .writeMediaRecord p b ∧ code = 0x29 ∧ bad = False ∨
      c = .mapSpare p b ∧ code = 0x2A ∧ bad = (599 < b.track) ∨
      c = .formatTrack p b ∧ code = 0x2B ∧ bad = (616 < b.track ∨ 1 < b.head)) →
    s.delivers p code b = true →
    let refused (o : Outcome) : Prop := exec c s = .next ((s.restartLimit p).respond p code b.tag o [])
    let leaving := s.custody.state = .ejectPending ∨ s.custody.state = .unmounting ∨ s.custody.state = .releasing
    (bad → refused .badParameter) ∧
    (¬ bad → s.supply.state ≠ .high → refused .supplyLow) ∧
    (¬ bad → s.supply.state = .high →
      (s.custody.state = .jammed → refused .jammed) ∧
      (s.custody.state = .empty ∨ s.custody.state = .inserted ∨ s.custody.state = .mounting → refused .noMedium) ∧
      (s.custody.state = .mounted ∨ s.custody.state = .blank ∨ leaving →
        (s.ctx p).acknowledged ≠ s.custody.generation → refused .mediaChanged) ∧
      (leaving → (s.ctx p).acknowledged = s.custody.generation → refused .ejectPending) ∧
      (s.MediumKnownTo p →
        (¬ s.FreeFor p → refused .reserved) ∧
        (s.FreeFor p → s.holdsIn p .exclusive = false → refused .notHolder) ∧
        (s.FreeFor p → s.holdsIn p .exclusive = true → s.custody.protect = some .isProtected →
          refused .writeProtected) ∧
        (s.FreeFor p → s.holdsIn p .exclusive = true → s.custody.protect ≠ some .isProtected →
          (code = 0x2A → s.custody.state = .blank → refused .blankMedium) ∧
          (code ≠ 0x2A ∨ s.custody.state = .mounted → s.maintBusy p = true → refused .busy) ∧
          (code = 0x2A → s.custody.state = .mounted → s.maintBusy p = false →
            (∀ r, s.copy = some r → ∀ e ∈ r.spares, e.state ≠ .free) → refused .noSpare))))) ∧
  (∀ (s : State) (p : Port) (b : Block), s.delivers p 0x30 b = true → s.supply.state = .high → ¬ s.FreeFor p →
    exec (.setParameters p b) s = .next ((s.restartLimit p).respond p 0x30 0 .reserved [])) ∧
  (∀ (s : State) (p : Port),
    (s.holdsIn p .exclusive = true ↔ ∃ r, s.reservation = some r ∧ r.holder = p ∧ r.mode = .exclusive) ∧
    (s.maintBusy p = true ↔
      (∃ e ∈ (s.ctx p).queue, e.state = .ready ∨ e.state = .inSession) ∨ s.session ≠ none ∨ (s.ctx p).maint ≠ none ∨
      ∃ q m, (s.ctx q).maint = some m ∧ m.outcome = none))

/-! ### Memory -/

/-- The buffer RAM and the recorded surfaces read back what was last put in a place, and nothing else of them changes,
at the present carriage position and at any other; storing keeps the canonical form. -/
def Obligations.StoredBytesReadBack : Prop :=
  ∀ s : State, s.MemoryCanonical →
    (∀ (a b : Nat) (v : Byte), (s.setRamByte a v).ramByte b = if b = a then v else s.ramByte b) ∧
    (∀ (n off : Nat) (l : List Byte),
      (s.storeBuffer n off l).MemoryCanonical ∧
      (∀ i v, l[i]? = some v → (s.storeBuffer n off l).ramByte (512 * n + off + i) = v) ∧
      (∀ a, a < 512 * n + off ∨ 512 * n + off + l.length ≤ a → (s.storeBuffer n off l).ramByte a = s.ramByte a) ∧
      (l.length = 512 → (s.storeBuffer n 0 l).bufferBytes n = l)) ∧
    (∀ (h k h' k' : Nat) (i : SectorImage), h < 2 → k < 20 → h' < 2 → k' < 20 →
      (s.setImage h k i).MemoryCanonical ∧
      ((s.setImage h k i).image h' k' = if h' = h ∧ k' = k then i else s.image h' k') ∧
      ∀ c, c ≠ s.carriage →
        ({ s.setImage h k i with carriage := c } : State).image h' k' = ({ s with carriage := c } : State).image h' k')

/-! ### Link steps -/

/-- A byte taken on a link that is present, but not the last of its block or phase: it opens a block in IDLE, is kept in
RECEIVING_BLOCK, is stored in DATA_IN (in a WRITE's phase at its place of the entry's buffers), and in a sending state
its strobe stays unacknowledged; an outbound byte counts on and restarts the stall timer. On a link that is not present
no byte is taken in either direction (R115, R155). -/
def Obligations.LinkBytesAreTaken : Prop :=
  (∀ (s : State) (p : Port) (b : Byte), (s.ctx p).linkPresent = true →
    let now : Option Timer := some ⟨s.time, 100000⟩
    let n := (s.link p).counter
    ((s.link p).state = .idle → exec (.inboundByteTaken p b) s = .next (s.updLink p fun _ =>
      ⟨.receivingBlock, 1, 8, now, [b], [], [], .plain, none⟩)) ∧
    ((s.link p).state = .receivingBlock → (s.link p).received.length < 7 → exec (.inboundByteTaken p b) s = .next
      (s.updLink p fun l => { l with received := l.received ++ [b], counter := n + 1 })) ∧
    ((s.link p).state = .dataIn → n + 1 < (s.link p).expected →
      (∀ tag e, (s.link p).work = .writeData tag → s.entry? p tag = some e → exec (.inboundByteTaken p b) s = .next
        ((s.setRamByte (512 * e.buffers.getD (n / 512) 16 + n % 512) b).updLink p fun l =>
          { l with counter := n + 1, timer := now })) ∧
      (((∃ tag, (s.link p).work = .mediaRecord tag) ∨ (s.link p).work = .parameters) →
        exec (.inboundByteTaken p b) s = .next (s.updLink p fun l =>
          { l with received := l.received ++ [b], counter := n + 1, timer := now }))) ∧
    ((s.link p).state = .responseOut ∨ (s.link p).state = .dataOut →
      exec (.inboundByteTaken p b) s = .next (s.updLink p fun l => { l with strobe := some b }) ∧
      (n + 1 < (s.link p).expected → exec (.outboundByteTaken p) s = .next (s.updLink p fun l =>
        { l with counter := n + 1, timer := now })))) ∧
  (∀ (s : State) (p : Port) (b : Byte), (s.ctx p).linkPresent = false →
    exec (.inboundByteTaken p b) s = .next s ∧ exec (.outboundByteTaken p) s = .next s)

/-- The block timer and the stall timer send the link back to IDLE, where a strobe left pending opens a new block; what
the block or response would have completed is not done. A timer that has not expired does nothing: log 2. -/
def Obligations.BlockAndStallTimersAbandon : Prop :=
  ∀ (s : State) (p : Port),
    let idle : State := s.updLink p fun l => match l.strobe with
      | none => ⟨.idle, 0, 0, none, [], [], [], .plain, none⟩
      | some b => ⟨.receivingBlock, 1, 8, some ⟨s.time, 100000⟩, [b], [], [], .plain, none⟩
    ((s.link p).state = .receivingBlock → ∀ x, (s.link p).timer = some x →
      exec (.blockTimerExpiry p) s = .next (if x.length ≤ (s.time - x.start).toNat then idle else s)) ∧
    (s.Sends p → ∀ x, (s.link p).timer = some x →
      exec (.stallTimerExpiry p) s = .next (if x.length ≤ (s.time - x.start).toNat then idle else s))

/-- The gap timer undoes the command of an inbound phase and answers DATA_TIMEOUT: a WRITE's entry is removed and its
buffers return to FREE, a WRITE MEDIA RECORD's maintenance record is removed, a SET PARAMETERS leaves the table. -/
def Obligations.GapTimerUndoesThePhase : Prop :=
  ∀ (s : State) (p : Port) (x : Timer), (s.link p).state = .dataIn → (s.link p).timer = some x →
    x.length ≤ (s.time - x.start).toNat →
    (∀ tag e, (s.link p).work = .writeData tag → s.entry? p tag = some e → exec (.dataPhaseGapTimeout p) s = .next
      (((((s.updCtx p fun c => { c with queue := c.queue.filter fun e => !(e.tag == tag) }).assignBuffers e.buffers
        none).respond p 0x19 tag .dataTimeout []).finish))) ∧
    (∀ tag, (s.link p).work = .mediaRecord tag → exec (.dataPhaseGapTimeout p) s = .next
      (((s.updCtx p fun c => { c with maint := none }).respond p 0x29 tag .dataTimeout []).finish)) ∧
    ((s.link p).work = .parameters → exec (.dataPhaseGapTimeout p) s = .next
      ((s.respond p 0x30 0 .dataTimeout []).finish))

/-- The last byte of a response or outbound phase is taken: DATA_OUT follows a response that announces a phase, IDLE
follows the rest, where a strobe left pending opens a new block (R156); a notice record leaves its queue, and the data
of a FETCH DATA is given up, only then. The record's owner is told first (R63): a DONE READ whose data is unfetched is
NOTICED, another entry or the maintenance record is removed; then the freed place is filled. One command for the bytes
still to go: log 3. -/
def Obligations.OutboundEndCompletes : Prop :=
  (∀ (s : State) (p : Port), (s.ctx p).linkPresent = true →
    let rest : Link := match (s.link p).strobe with
      | none => ⟨.idle, 0, 0, none, [], [], [], .plain, none⟩
      | some b => ⟨.receivingBlock, 1, 8, some ⟨s.time, 100000⟩, [b], [], [], .plain, none⟩
    ((s.link p).state = .responseOut → (s.link p).outPhase ≠ [] → (s.link p).work ≠ .notice →
      exec (.responseComplete p) s = .next (s.updLink p fun l =>
        { l with state := .dataOut, counter := 0, expected := l.outPhase.length, timer := some ⟨s.time, 100000⟩ })) ∧
    ((s.link p).state = .responseOut → (s.link p).outPhase = [] → (s.link p).work = .plain →
      exec (.responseComplete p) s = .next (s.updLink p fun _ => rest)) ∧
    ((s.link p).state = .dataOut → (s.link p).work = .plain →
      exec (.responseComplete p) s = .next (s.updLink p fun _ => rest)) ∧
    ((s.link p).state = .responseOut → (s.link p).outPhase = [] → (s.link p).work = .notice →
      ∀ c ∈ [Instr.responseComplete p, .noticeRecordTaken p],
        exec c s = .next ((s.updCtx p PortContext.takeNotice).updLink p fun _ => rest)) ∧
    ((s.link p).state = .dataOut → ∀ tag e, (s.link p).work = .fetchData tag → s.entry? p tag = some e →
      ∀ c ∈ [Instr.responseComplete p, .fetchDataComplete p],
        (e.state = .noticed → exec c s = .next
          (((s.updCtx p fun c => { c with queue := c.queue.filter fun e => !(e.tag == tag) }).assignBuffers e.buffers
            none).updLink p fun _ => rest)) ∧
        (e.state ≠ .noticed → exec c s = .next
          (((s.assignBuffers e.buffers none).updEntry p tag fun e => { e with buffers := [], dataFetched := true }).updLink
            p fun _ => rest)))) ∧
  (∀ (s : State) (p : Port),
    ((s.ctx p).notices = [] → (s.ctx p).takeNotice = s.ctx p) ∧
    (∀ n more, (s.ctx p).notices = n :: more →
      let c : PortContext := { s.ctx p with notices := more }
      let told : PortContext := match n.body, n.tag with
        | .transferDone _ _, some tag => match c.queue.find? fun e => e.tag == tag with
          | none => c
          | some e =>
            if e.op = .read ∧ e.outcome = some .done ∧ e.dataFetched = false then
              { c with queue := c.queue.map fun e => if e.tag == tag then { e with state := .noticed } else e }
            else { c with queue := c.queue.filter fun e => !(e.tag == tag) }
        | .maintenanceDone _ _, _ => { c with maint := none }
        | _, _ => c
      exec (.noticeRefill p) (s.setCtx p told) = .next (s.setCtx p (s.ctx p).takeNotice)))

/-- Filling a freed place of a notice queue (R150): the pending kind of highest priority, else the maintenance member of
the held list, else its oldest request entry, whose placement becomes QUEUED. A full queue, and one for which nothing
waits, is left as it is: log 2. -/
def Obligations.NoticeRefillOrder : Prop :=
  ∀ (s : State) (p : Port),
    let c := s.ctx p
    let filled (d : PortContext) : Prop := exec (.noticeRefill p) s = .next (s.setCtx p d)
    (8 ≤ c.notices.length → filled c) ∧
    (c.notices.length < 8 →
      (∀ n rest, c.pendingSet = n :: rest → filled { c with notices := c.notices ++ [n], pendingSet := rest }) ∧
      (c.pendingSet = [] → c.held = [] → filled c) ∧
      (∀ m, c.pendingSet = [] → .maintenance ∈ c.held → c.maint = some m → filled { c with
        held := c.held.filter fun h => h ≠ .maintenance, notices := c.notices ++ [m.notice] }) ∧
      (∀ tag rest e, c.pendingSet = [] → .maintenance ∉ c.held → c.held = .transfer tag :: rest →
        c.queue.find? (fun e => e.tag == tag) = some e → filled { c with
          queue := c.queue.map fun e => if e.tag == tag then { e with placement := some .queued } else e
          held := c.held.filter fun h => h ≠ .transfer tag
          notices := c.notices ++ [e.notice] }))

/-- Posting an event kind to a port (R148): discarded while the link is not present; at the tail while fewer than eight
records wait; else kept as its kind's pending record, which replaces one of that kind whole and leaves the others. The
queue's own records are neither removed nor reordered. What both ports are told carries the time and the generation of
the moment. A completion is placed in the same way, or joins the held list (R62, R149); a condition flag is set where
the link is present (R151). -/
def Obligations.PostedNoticeIsPlaced : Prop :=
  (∀ (c : PortContext) (n : Notice),
    (c.linkPresent = false → c.post n = c) ∧
    (c.linkPresent = true → c.notices.length < 8 → c.post n = { c with notices := c.notices ++ [n] }) ∧
    (c.linkPresent = true → 8 ≤ c.notices.length → (c.pendingSet.map fun m => m.body.priority).Pairwise (· < ·) →
      c.post n = { c with pendingSet := (c.post n).pendingSet } ∧
      n ∈ (c.post n).pendingSet ∧
      (∀ m, m ∈ (c.post n).pendingSet ↔ m = n ∨ m ∈ c.pendingSet ∧ m.body.priority ≠ n.body.priority) ∧
      ((c.post n).pendingSet.map fun m => m.body.priority).Pairwise (· < ·))) ∧
  (∀ (s : State) (body : NoticeBody),
    let n : Notice := ⟨body, s.time, s.custody.generation, none⟩
    s.postBoth body = { s with portA := s.portA.post n, portB := s.portB.post n } ∧
    ∀ p, s.post p body = s.updCtx p fun c => c.post n) ∧
  (∀ (c : PortContext) (tag : Byte) (e : Entry), c.queue.find? (fun e => e.tag == tag) = some e →
    let placed (pl : Placement) : List Entry :=
      c.queue.map fun e => if e.tag == tag then { e with placement := some pl } else e
    (c.linkPresent = false → c.placeTransfer tag = c) ∧
    (c.linkPresent = true → c.notices.length < 8 → c.placeTransfer tag = { c with
      queue := placed .queued
      notices := c.notices ++
        [⟨.transferDone (e.outcome.getD .done) e.resolved, e.completionTime.getD 0, e.generation, some e.tag⟩] }) ∧
    (c.linkPresent = true → 8 ≤ c.notices.length →
      c.placeTransfer tag = { c with queue := placed .held, held := c.held ++ [.transfer tag] })) ∧
  (∀ (c : PortContext) (m : Maint), c.maint = some m →
    (c.linkPresent = false → c.placeMaint = c) ∧
    (c.linkPresent = true → c.notices.length < 8 → c.placeMaint = { c with notices := c.notices ++
      [⟨.maintenanceDone m.kind (m.outcome.getD (.done 0)), m.endTime, m.endGeneration, some m.tag⟩] }) ∧
    (c.linkPresent = true → 8 ≤ c.notices.length → c.placeMaint = { c with held := c.held ++ [.maintenance] })) ∧
  (∀ (s : State) (p : Port) (tag : Byte) (o : XferOutcome),
    (s.entry? p tag = none → s.completeEntry p tag o = s) ∧
    (∀ e, s.entry? p tag = some e →
      let frees (f : Entry) : Bool := decide (f.op = .write ∨ o ≠ .done)
      let ended : State := s.updEntry p tag fun f => { f with
        state := .completeUnnoticed, outcome := some o, completionTime := some s.time, cancelling := false
        buffers := if frees f then [] else f.buffers }
      s.completeEntry p tag o =
        (if frees e then ended.assignBuffers e.buffers none else ended).updCtx p fun c => c.placeTransfer tag)) ∧
  (∀ (s : State) (f : Flag),
    let set (c : PortContext) : PortContext := if c.linkPresent = false then c else { c with
      conditions := match f with
        | .speedLost => { c.conditions with speedLost := true }
        | .spindleFault => { c.conditions with spindleFault := true }
        | .positionUncertain => { c.conditions with positionUncertain := true }
        | .recalFailed => { c.conditions with recalFailed := true }
        | .supplyLow => { c.conditions with supplyLow := true }
        | .ejectJammed => { c.conditions with ejectJammed := true } }
    s.raiseFlag f = { s with portA := set s.portA, portB := set s.portB })

/-- The last bytes of a WRITE's phase: stored at their places of the entry's buffers, and nowhere else; the entry
becomes READY while the cartridge it was accepted for is still ready, with a spin request and a judgement for joining,
and completes CANCELLED with 0 sectors otherwise; answered TAKEN. One command for the bytes still to come: log 3. -/
def Obligations.WritePhaseEnds : Prop :=
  ∀ (s : State) (p : Port) (bytes : List Byte) (tag : Byte) (e : Entry),
    1 ≤ bytes.length → bytes.length ≤ 4096 → s.EndsPhase p bytes → (s.link p).work = .writeData tag →
    s.entry? p tag = some e → s.MemoryCanonical →
    ∃ ram : List Host.Cell,
      let n := (s.link p).counter
      let v : State := { s with ram := ram }
      (∀ a, (∀ i, i < bytes.length → a ≠ 512 * e.buffers.getD ((n + i) / 512) 16 + (n + i) % 512) →
        v.ramByte a = s.ramByte a) ∧
      (e.buffers.Nodup → n + bytes.length ≤ 512 * e.buffers.length → ∀ i x, bytes[i]? = some x →
        v.ramByte (512 * e.buffers.getD ((n + i) / 512) 16 + (n + i) % 512) = x) ∧
      ((s.custody.state = .mounted ∨ s.custody.state = .blank) → e.generation = s.custody.generation →
        exec (.writeDataPhaseComplete p bytes) s = .next
          (((((v.updEntry p tag fun e => { e with state := .ready }).spinRequest).judgeJoin p tag).respond p 0x19 tag
            .taken []).finish)) ∧
      ((s.custody.state ≠ .mounted ∧ s.custody.state ≠ .blank) ∨ e.generation ≠ s.custody.generation →
        exec (.writeDataPhaseComplete p bytes) s = .next
          (((v.completeEntry p tag (.cancelled 0)).respond p 0x19 tag .taken []).finish))

/-- The end of a WRITE MEDIA RECORD's phase: the record buffer holds the record built from the 20 bytes (the label, then
the serial number), and a record write is handed on. A record kept from the copy counts one write more; a fresh one has
write count 1 and sixteen FREE entries. The end of a SET PARAMETERS phase: the whole table is replaced in one step. One
command for the bytes still to come: log 3. The end of a maintenance operation (R129, R132, R135, R136): what it
commits, its outcome and its notice, or with the discard mark its removal alone. The order of the notices of one end,
and of the entries that a commit cancels: log 16. -/
def Obligations.RecordAndParameterPhasesEnd : Prop :=
  (∀ (s : State) (p : Port) (bytes : List Byte) (tag : Byte) (m : Maint),
    1 ≤ bytes.length → bytes.length ≤ 20 → s.EndsPhase p bytes → (s.link p).work = .mediaRecord tag →
    (s.ctx p).maint = some m →
    let all := (s.link p).received ++ bytes
    let label := all.take 16
    let serial := (all.drop 16).take 4
    let ended (r : MediaRecord) : Prop := exec (.mediaRecordPhaseComplete p bytes) s = .next
      (((({ s with driveReq := some ⟨.recordWrite, 0, 0, .maintenance p⟩ } : State).storeBuffer recordBuffer 0
        r.bytes).respond p 0x29 tag .taken []).finish)
    (∀ r, m.starting = .mounted → s.copy = some r →
      ended { r with serial := serial, label := label, writeCount := (r.writeCount + 1) % 65536 }) ∧
    (m.starting = .blank ∨ s.copy = none → ended ⟨serial, label, 1, List.replicate 16 ⟨.free, 0⟩⟩)) ∧
  (∀ (s : State) (p : Port) (bytes : List Byte), 1 ≤ bytes.length → bytes.length ≤ 40 → s.EndsPhase p bytes →
    (s.link p).work = .parameters →
    exec (.parameterPhaseComplete p bytes) s = .next
      ((({ s with params := paramsOf ((s.link p).received ++ bytes) } : State).respond p 0x30 0 .done []).finish)) ∧
  (∀ (s : State) (p : Port) (m : Maint) (o : DriveOutcome), (s.ctx p).maint = some m →
    let written (u : State) : MediaRecord := decodeRecord (u.bufferBytes 16)
    let raised : Nat := if s.custody.generation = 255 then 1 else s.custody.generation + 1
    let t : State := match o, m.kind, m.starting with
      | .failed _, _, _ => s
      | .done, .formatTrack, _ => s
      | .done, .mapSpare, _ => { s with copy := some (written s) }
      | .done, .writeMediaRecord, .mounted => { s with copy := some (written s) }
      | .done, .writeMediaRecord, .blank =>
        if s.custody.state = .blank then
          (({ s with
            copy := some (written s)
            custody := { s.custody with state := .mounted, generation := raised } } : State).postBoth
              .mediumMounted).cancelAll fun e => decide (e.generation ≠ raised)
        else s
    let outcome : MaintOutcome := match o, m.kind with
      | .failed c, _ => .failed c
      | .done, .formatTrack => .done 0
      | .done, .mapSpare => .done m.spare
      | .done, .writeMediaRecord => .done (written t).writeCount
    (m.discard = true → s.maintenanceEnd p o = t.updCtx p fun c => { c with maint := none }) ∧
    (m.discard = false → s.maintenanceEnd p o = t.updCtx p fun c => ({ c with maint := some { m with
      outcome := some outcome, endTime := t.time, endGeneration := t.custody.generation } } : PortContext).placeMaint))

/-! ### Resets -/

/-- Power-on reset: every register at its reset value, the inputs as they are read, custody and its first spin request
by the present and latch sensors. The values that the rules do not state are the model's: the sector buffers at 00h (log
7), and the fields of log 28. The carriage, and a cartridge that is present, stay as they are (log 8), but a field or
sector that the gate was recording is torn or cut (R5, R9); the waiting commands stay (log 1). -/
def Obligations.PowerOnResetState : Prop :=
  ∀ (s : State) (r : ResetReading),
    let t : State := { State.reset with
      pins := ⟨r.present, r.latched, r.writeProtect, r.comparatorHigh, r.buttonDown⟩
      portA := .reset r.presenceA
      portB := .reset r.presenceB
      supply := ⟨if r.comparatorHigh then .high else .low, none⟩
      medium := if r.present then s.dropGate.medium else []
      carriage := s.carriage
      freeCount := s.dropGate.freeCount
      pending := s.pending }
    (r.present = false → exec (.powerOnReset r) s = .next t) ∧
    (r.present = true → r.latched = false → exec (.powerOnReset r) s = .next { t with custody :=
      { Custody.reset with state := .inserted, debounceTimer := some ⟨0, 500000⟩ } }) ∧
    (r.present = true → r.latched = true → exec (.powerOnReset r) s = .next (({ t with custody :=
      { Custody.reset with
        state := .mounting, step := some .spinning, latched := true, supplyHold := !r.comparatorHigh,
        protect := some (if r.writeProtect then .isProtected else .writable) } } : State).spinRequest)) ∧
    t.time = 0 ∧ t.spindle.state = .stopped ∧ t.spindle.duty = 0 ∧ t.brakeOn = false ∧ t.spindle.lastIndex = none ∧
    t.spindle.period = none ∧ t.spindle.goodCount = 0 ∧ t.spindle.badCount = 0 ∧ t.spindle.firstIndexTimer = none ∧
    t.spindle.lockTimer = none ∧ t.spindle.absenceTimer = none ∧ t.spindle.regainTimer = none ∧
    t.spindle.quietTimer = none ∧ t.spindle.idleTimer = none ∧ t.spindle.idleCount = 0 ∧ t.spindle.revolutions = 0 ∧
    t.spindle.restartFlag = false ∧ t.spindle.standbyFlag = false ∧ t.spindle.faultPending = false ∧
    t.spindle.standbyStop = false ∧ t.spindle.lastFault = none ∧ t.seq.current = none ∧ t.seq.gate = false ∧
    t.pos.state = .unloaded ∧ t.pos.counter = 640 ∧ t.pos.confidence = .known ∧ t.turn = .b ∧ t.custody.generation = 0 ∧
    t.session = none ∧ t.reservation = none ∧ (∀ k, t.slot k = Slot.blank) ∧ t.freeBuffers = 16

/-- A port reset: the port's context as after power-on but for its presence, the flags whose cause persists, and a
strobe left pending, which opens a block in IDLE (R156) while the link is present (log 17); only entries with an
operation in flight stay, with the discard mark and their buffers; the buffers of the others return to FREE, and all
slots of the port's entries but ACTIVE ones to EMPTY (R67); a reservation the port holds is freed; the other port's
link, lock, acknowledgement, queue, buffers and notices stand, but for the notice that the reservation is free and a
READY entry that joins the session; drive time, the parameters, the supply and custody stand. What R34 names stands at
the reset itself; the idle judgement and the gate's law that follow every step (R29, R82) then act on the idle timer and
its count, and, where the idle conditions hold, on the standby stop, the heads and the gate. -/
def Obligations.PortResetClearsThePort : Prop :=
  (∀ (s : State) (p : Port), ((s.ctx p).queue.map Entry.tag).Nodup →
    ∃ t, exec (.portReset p) s = .next t ∧
      let c := t.ctx p
      let o := s.ctx p
      (c.linkPresent = o.linkPresent ∧ c.acknowledged = 0 ∧ c.lockHeld = false ∧ c.notices = [] ∧ c.pendingSet = [] ∧
        c.held = [] ∧ c.lastRefusal = none) ∧
      c.link = (match o.linkPresent, o.link.strobe with
        | true, some b => ⟨.receivingBlock, 1, 8, some ⟨s.time, 100000⟩, [b], [], [], .plain, none⟩
        | _, _ => ⟨.idle, 0, 0, none, [], [], [], .plain, none⟩) ∧
      c.conditions = (if o.linkPresent = true then
          ⟨false, s.faultOutstanding, decide (s.pos.confidence = .uncertain), s.recalOutstanding,
            !decide (s.supply.state = .high), decide (s.custody.state = .jammed)⟩
        else ⟨false, false, false, false, false, false⟩) ∧
      (∀ e ∈ c.queue, e.discard = true ∧ e.state = .inSession ∧ s.hasActiveSlot p e.tag = true) ∧
      (∀ e ∈ o.queue, (e.state = .inSession ∧ s.hasActiveSlot p e.tag = true ↔ ∃ f ∈ c.queue, f.tag = e.tag)) ∧
      (c.maint = match o.maint with
        | none => none
        | some m =>
          if m.outcome ≠ none then none
          else if o.link.state = .dataIn ∧ ∃ tag, o.link.work = .mediaRecord tag then none
          else some { m with discard := true }) ∧
      (s.holds p = true → t.reservation = none) ∧ (s.holds p = false → t.reservation = s.reservation) ∧
      (t.ctx p.other).link = (s.ctx p.other).link ∧ (t.ctx p.other).lockHeld = (s.ctx p.other).lockHeld ∧
      (t.ctx p.other).acknowledged = (s.ctx p.other).acknowledged ∧
      (s.holds p = false → (t.ctx p.other).notices = (s.ctx p.other).notices) ∧
      t.time = s.time ∧ t.params = s.params ∧ t.supply = s.supply ∧ t.custody = s.custody ∧ t.copy = s.copy ∧
      t.spindle.state = s.spindle.state ∧ t.spindle.duty = s.spindle.duty ∧ t.spindle.lastIndex = s.spindle.lastIndex ∧
      t.spindle.period = s.spindle.period ∧ t.spindle.revolutions = s.spindle.revolutions ∧
      t.spindle.restartFlag = s.spindle.restartFlag ∧ t.spindle.standbyFlag = s.spindle.standbyFlag ∧
      t.spindle.faultPending = s.spindle.faultPending ∧ t.spindle.lastFault = s.spindle.lastFault ∧
      t.seq.current = s.seq.current ∧ t.turn = s.turn) ∧
  (∀ (s t : State) (p : Port), ((s.ctx p).queue.map Entry.tag).Nodup → exec (.portReset p) s = .next t →
    let o := s.ctx p
    let stays (e : Entry) : Bool := decide (e.state = .inSession ∧ s.hasActiveSlot p e.tag = true)
    (t.ctx p).queue = (o.queue.filter stays).map (fun e => { e with discard := true }) ∧
    t.pool.length = s.pool.length ∧
    (∀ (i : Nat) (h : Option Port), s.pool[i]? = some h →
      ((∃ e ∈ o.queue, stays e = false ∧ i ∈ e.buffers) → t.pool[i]? = some none) ∧
      ((∀ e ∈ o.queue, stays e = false → i ∉ e.buffers) → t.pool[i]? = some h)) ∧
    t.slots.length = s.slots.length ∧
    (∀ (k : Nat) (x : Slot), t.slots[k]? = some x → ∀ e ∈ o.queue, x.owner = some (.port p) → x.tag = some e.tag →
      x.state = .active ∧ s.slots[k]? = some x) ∧
    (∀ (k : Nat) (x : Slot), s.slots[k]? = some x → x.state ≠ .empty → (x.owner = some (.port p) → x.state = .active ∧
        ∃ e ∈ o.queue, e.state = .inSession ∧ x.tag = some e.tag) → t.slots[k]? = some x) ∧
    (((s.ctx p.other).queue.map Entry.tag).Nodup →
      (t.ctx p.other).queue.length = (s.ctx p.other).queue.length ∧
      ∀ (n : Nat) (e : Entry), (s.ctx p.other).queue[n]? = some e → ∃ f, (t.ctx p.other).queue[n]? = some f ∧
        (f = e ∨ e.state = .ready ∧
          f = { e with state := .inSession, position := f.position, resolved := f.resolved }))) ∧
  (∀ (s t : State) (p : Port), exec (.portReset p) s = .next t →
    t.spindle.goodCount = s.spindle.goodCount ∧ t.spindle.badCount = s.spindle.badCount ∧
    t.spindle.firstIndexTimer = s.spindle.firstIndexTimer ∧ t.spindle.lockTimer = s.spindle.lockTimer ∧
    t.spindle.absenceTimer = s.spindle.absenceTimer ∧ t.spindle.regainTimer = s.spindle.regainTimer ∧
    t.spindle.quietTimer = s.spindle.quietTimer ∧
    (s.spindle.standbyStop = true → t.spindle.standbyStop = true) ∧
    (s.seq.gate = false → t.seq = s.seq) ∧
    ∃ u : State, t = u.finish ∧ u.spindle = s.spindle ∧ u.seq = s.seq ∧ u.medium = s.medium ∧
      u.carriage = s.carriage ∧ (u.pos = s.pos ∨ u.pos = { s.pos with waitingTarget := none, request := none }) ∧
      (u.idleConditions = false → t.spindle.standbyStop = s.spindle.standbyStop ∧ t.pos = u.pos ∧
        t.carriage = s.carriage ∧ (s.GateLawful → t.seq = s.seq ∧ t.medium = s.medium)))

/-- The presence lines: falling clears link present and starts a port reset, rising sets it together with the flags
whose cause persists; a line that is already there changes nothing: log 2. -/
def Obligations.PresenceLines : Prop :=
  ∀ (s : State) (p : Port),
    exec (.portReset p) s = .next (s.portReset p).finish ∧
    ((s.ctx p).linkPresent = true →
      exec (.presenceLineLow p) s = .next ((s.updCtx p fun c => { c with linkPresent := false }).portReset p).finish ∧
      exec (.presenceLineHigh p) s = .next s) ∧
    ((s.ctx p).linkPresent = false →
      exec (.presenceLineLow p) s = .next s ∧
      exec (.presenceLineHigh p) s = .next (s.updCtx p fun c => { c with
        linkPresent := true
        conditions := ⟨c.conditions.speedLost, c.conditions.spindleFault || s.faultOutstanding,
          c.conditions.positionUncertain || decide (s.pos.confidence = .uncertain),
          c.conditions.recalFailed || s.recalOutstanding,
          c.conditions.supplyLow || !decide (s.supply.state = .high),
          c.conditions.ejectJammed || decide (s.custody.state = .jammed)⟩ }))

/-! ### Spindle steps -/

/-- An index event outside regulation: ignored in STOPPED and COASTING, it restarts the quiet timer in BRAKING. In
STARTING it renews X, P and the first-index timer; the first period of at most 21,000 enters LOCKING with duty 150 and
is the start of sector 0. -/
def Obligations.IndexEventOutsideRegulation : Prop :=
  ∀ (s : State) (o : IndexOrder),
    let x : Spindle := { s.spindle with
      lastIndex := some s.time, period := s.spindle.lastIndex.map fun a => (s.time - a).toNat,
      firstIndexTimer := some ⟨s.time, 2000000⟩ }
    (s.spindle.state = .stopped ∨ s.spindle.state = .coasting → exec (.indexEvent o) s = .next s) ∧
    (s.spindle.state = .braking →
      exec (.indexEvent o) s = .next { s with spindle := { s.spindle with quietTimer := some ⟨s.time, 400000⟩ } }) ∧
    (s.spindle.state = .starting → (∀ a, s.spindle.lastIndex = some a → 21000 < (s.time - a).toNat) →
      exec (.indexEvent o) s = .next ({ s with spindle := x } : State).finish) ∧
    (s.spindle.state = .starting → ∀ a, s.spindle.lastIndex = some a → (s.time - a).toNat ≤ 21000 →
      exec (.indexEvent o) s = .next ((({ s with spindle := { x with
        state := .locking, duty := 150, goodCount := 0, badCount := 0, firstIndexTimer := none,
        absenceTimer := some ⟨s.time, 40000⟩ } } : State).sectorStart 0).finish))

/-- An index event in LOCKING or AT_SPEED: X, P, the regulated duty and the revolution counters. With a fault pending
nothing more changes. Otherwise the absence timer restarts, the period is judged, and the window end, the report and the
start of sector 0 follow in the order in which they are taken: AT_SPEED at the fourth good period, the loss at the
second bad one. What a loss does to the sequencer, the session, a load and both ports (R22, R43, R84), and what the
index does to a format pass (R93). The order operand, and the session's count before all three: log 4; a format pass
judged due before the reports of its own index: log 22; the order of a loss's notices: log 16. -/
def Obligations.RegulatedIndexEvent : Prop :=
  (∀ (s : State) (o : IndexOrder) (a : Time), s.spindle.state = .locking ∨ s.spindle.state = .atSpeed →
    s.spindle.lastIndex = some a →
    let n := (s.time - a).toNat
    let e : Int := (n : Int) - 20000
    let d := max 40 (min 255 ((s.spindle.duty : Int) + max (-12) (min 12 (e.tdiv 32))))
    let x : Spindle := { s.spindle with
      lastIndex := some s.time, period := some n, duty := d.toNat, revolutions := s.spindle.revolutions + 1 }
    let counted (due : Session → Bool) : Option Session := s.session.map fun y => { y with
      revolutions := if y.phase = .serving then min (y.revolutions + 1) 3 else y.revolutions, passDue := due y }
    (s.spindle.faultPending = true → exec (.indexEvent o) s = .next
      ({ s with spindle := x, session := counted fun _ => false } : State).finish) ∧
    (s.spindle.faultPending = false →
      let v : State := { s with
        spindle := { x with
          absenceTimer := some ⟨s.time, 40000⟩
          goodCount := if x.state = .locking then (if e.natAbs ≤ 100 then x.goodCount + 1 else 0) else x.goodCount
          badCount := if x.state = .atSpeed then (if e.natAbs ≤ 200 then 0 else x.badCount + 1) else x.badCount }
        session := counted fun y => decide (y.owner = .drive ∧ (∃ r, s.driveReq = some r ∧ r.kind = .formatPass) ∧
          y.serves = true ∧ s.seq.pass = none) }
      exec (.indexEvent o) s = .next (match o with
        | .reportFirst => (((v.speedReport.resumeSession.windowEnd).passAtIndex).sectorStart 0).finish
        | .windowFirst => ((((v.windowEnd.passAtIndex).speedReport).resumeSession).sectorStart 0).finish
        | .startFirst => (((v.windowEnd.passAtIndex).sectorStart 0).speedReport).finish)) ∧
    (∀ v : State,
      (v.spindle.state = .locking → 4 ≤ v.spindle.goodCount → v.speedReport = { v with
        spindle := { v.spindle with
          state := .atSpeed, goodCount := 0, badCount := 0, lockTimer := none, regainTimer := none }
        faultOutstanding := false }) ∧
      (v.spindle.state = .atSpeed → 2 ≤ v.spindle.badCount → v.speedReport = v.speedLoss) ∧
      (v.spindle.state = .locking ∧ v.spindle.goodCount < 4 ∨ v.spindle.state = .atSpeed ∧ v.spindle.badCount < 2 →
        v.speedReport = v))) ∧
  (∀ v : State,
    let lost : State := { v with
      spindle := { v.spindle with
        state := .locking, badCount := 0, goodCount := 0, regainTimer := some ⟨v.time, 3000000⟩ }
      session := v.session.map fun x => { x with speedSuspended := true, passDue := false } }
    let away (target : Option Nat) (request : Option PosRequest) : State := { v with pos := { v.pos with
      state := .unloaded, loadTimer := none, plan := [], waitingTarget := target, request := request } }
    let ended : State := { v with seq := { v.seq with pass := none, gate := false } }
    v.speedLoss =
      ((((if v.seq.pass.isSome then lost.failPass .speed
          else if v.seq.op.isSome then lost.endOperation (.failed (if v.seq.gate then .torn else .speed))
          else lost).loadSpeedLoss).raiseFlag .speedLost).postBoth .spindleSpeedLost) ∧
    (v.pos.state ≠ .loading → v.loadSpeedLoss = v) ∧
    (v.pos.state = .loading → v.loadSpeedLoss = (match v.pos.request with
      | none => away none none
      | some (.seek q) => away (some q) (some (.seek q))
      | some .recalibrate => (away none none).custodyRecalFailed)) ∧
    (∀ c, v.failPass c =
      (({ v.dropGate with seq := { v.dropGate.seq with pass := none } } : State).reportDrive (.failed c)).closeJudgement) ∧
    (v.seq.pass = none → v.passAtIndex = v) ∧
    (v.seq.pass ≠ none → v.seq.current = some 19 → v.passAtIndex = (ended.reportDrive .done).closeJudgement) ∧
    (v.seq.pass ≠ none → v.seq.current ≠ some 19 →
      v.passAtIndex = (ended.reportDrive (.failed .timing)).closeJudgement))

/-- A spindle fault timer expires: the fault is recorded with its cause, its condition is set and its notice posted
where a station is connected, the session and the drive-owned request fail with cause SPEED, a mount from SPINNING on is
rejected with reason SPINDLE, and the positioner lets a load, a waiting target or a stage go. The spindle brakes at once
when it is STARTING or the heads are not over the platter, else the fault is pending and they retract. The brake in
EMERGENCY_RETRACT: log 15. The order in which the blocks take a fault, and so that of its notices: log 16. A timer that
has not expired does nothing: log 2. -/
def Obligations.FaultTimersRaiseTheFault : Prop :=
  (∀ s : State,
    (∀ f ∈ [(Instr.firstIndexTimerExpiry, s.spindle.firstIndexTimer, SpindleCause.noIndex),
        (.lockTimerExpiry, s.spindle.lockTimer, .noLock), (.indexAbsenceTimerExpiry, s.spindle.absenceTimer, .indexLost),
        (.regainTimerExpiry, s.spindle.regainTimer, .notRegained)],
      ∀ x, f.2.1 = some x →
        exec f.1 s = .next (if x.length ≤ (s.time - x.start).toNat then (s.spindleFault f.2.2).finish else s)) ∧
    (∀ c : SpindleCause,
      let t := s.spindleFault c
      t.spindle.lastFault = some c ∧ t.faultOutstanding = true ∧ t.seq.current = none ∧ t.driveReq = none ∧
      t.spindle.firstIndexTimer = none ∧ t.spindle.lockTimer = none ∧ t.spindle.absenceTimer = none ∧
      t.spindle.regainTimer = none ∧ t.spindle.standbyStop = false ∧
      (∀ p, (s.ctx p).linkPresent = true → (t.ctx p).conditions.spindleFault = true) ∧
      (∀ x, t.session = some x → x.failed = true) ∧
      (s.spindle.state = .starting ∨ s.pos.state = .unloaded ∨ s.pos.state = .loading ∨ s.pos.state = .retracting ∨
          s.pos.state = .emergencyRetract →
        t.spindle.state = .braking ∧ t.spindle.duty = 0 ∧ t.spindle.faultPending = false ∧
        t.spindle.quietTimer = some ⟨s.time, 400000⟩) ∧
      (s.spindle.state ≠ .starting → s.pos.state = .onTrack ∨ s.pos.state = .recalibrating ∨ s.pos.state = .seeking ∨
          s.pos.state = .settling →
        t.spindle.state = (if s.spindle.state = .atSpeed then .locking else s.spindle.state) ∧
        t.spindle.duty = s.spindle.duty ∧ t.spindle.faultPending = true) ∧
      (s.pos.state = .unloaded ∨ s.pos.state = .loading → t.pos.state = .unloaded) ∧
      (s.pos.state = .onTrack → t.pos.state = .retracting) ∧
      (s.pos.state = .recalibrating ∨ s.pos.state = .seeking ∨ s.pos.state = .settling →
        t.pos.state = s.pos.state ∧ t.pos.heldRetract = true))) ∧
  (∀ (s : State) (c : SpindleCause),
    let told : State := (({ s with
      spindle := { s.spindle with
        firstIndexTimer := none, lockTimer := none, absenceTimer := none, regainTimer := none, quietTimer := none,
        lastFault := some c, standbyStop := false }
      faultOutstanding := true } : State).raiseFlag .spindleFault).postBoth (.spindleFault c)
    let t := (told.failSession .speed .speed).reportDrive (.failed .speed)
    let waits : Bool := decide (t.custody.state = .mounting ∧ t.custody.step = some .spinning ∧
      t.custody.supplyHold = false)
    let braked : State := { t with
      spindle := { t.spindle with
        firstIndexTimer := none, lockTimer := none, absenceTimer := none, regainTimer := none, state := .braking
        duty := 0, quietTimer := some ⟨t.time, 400000⟩, faultPending := false, standbyStop := false
        restartFlag := t.spindle.restartFlag || (waits && decide (t.supply.state = .high)) }
      seq := { t.seq with current := none } }
    let pending : State := { t with
      spindle := { t.spindle with
        state := if t.spindle.state = .atSpeed then .locking else t.spindle.state, faultPending := true }
      seq := { t.seq with current := none } }
    s.spindleFault c = ((if s.spindle.state = .starting ∨ s.pos.state = .unloaded ∨ s.pos.state = .loading ∨
        s.pos.state = .retracting ∨ s.pos.state = .emergencyRetract then braked
      else pending).custodySpindleFault).posSpindleFault) ∧
  (∀ u : State,
    let kept : State := { u with pos := { u.pos with heldRetract := true } }
    let away : State := { u with pos := { u.pos with
      state := .unloaded, loadTimer := none, plan := [], waitingTarget := none, request := none } }
    u.custodySpindleFault = (if u.custody.state = .mounting ∧ u.custody.step ≠ some .latching ∧
        u.custody.supplyHold = false then u.rejectMount .spindle else u) ∧
    u.posSpindleFault = (match u.pos.state, u.pos.request with
      | .unloaded, _ => u.discardWaiting
      | .loading, some .recalibrate => away.custodyRecalFailed
      | .loading, some (.seek _) => away.sessionSeekAbandoned
      | .loading, none => away
      | .recalibrating, _ => kept
      | .seeking, _ => kept
      | .settling, _ => kept
      | .onTrack, _ => u.beginRetract
      | .retracting, _ => u
      | .emergencyRetract, _ => u))

/-- Braking and stopping: a pending fault, the end of COASTING and a standby stop with the heads parked enter BRAKING;
the quiet timer enters STOPPED; the restart flag starts the spindle again from there; a mount that waits for speed, and an
eject with requests still to serve, ask for it at once. An elapsed idle second is counted, at most to 2,550. -/
def Obligations.BrakingStoppingAndIdleSeconds : Prop :=
  ∀ s : State,
    let waits : Bool := decide (s.custody.state = .mounting ∧ s.custody.step = some .spinning ∧
      s.custody.supplyHold = false)
    let still : Spindle := { s.spindle with
      firstIndexTimer := none, lockTimer := none, absenceTimer := none, regainTimer := none, quietTimer := none,
      duty := 0 }
    let braked : State := { s with
      spindle := { still with
        state := .braking, quietTimer := some ⟨s.time, 400000⟩, faultPending := false, standbyStop := false
        restartFlag := s.spindle.restartFlag || (waits && decide (s.supply.state = .high)) }
      seq := { s.seq with current := none } }
    let stopped : State := { s with spindle := { still with state := .stopped, standbyFlag := false } }
    (s.spindle.faultPending = true → s.pos.state = .retracting ∨ s.pos.state = .unloaded →
      exec .pendingFaultBrake s = .next braked.finish) ∧
    (s.spindle.state = .coasting → s.pos.state = .unloaded → exec .coastingEnd s = .next braked.finish) ∧
    (s.spindle.standbyStop = true → s.spindle.state = .locking ∨ s.spindle.state = .atSpeed →
      s.pos.state = .unloaded → exec .standbyBrake s = .next braked.finish) ∧
    (s.spindle.state = .braking → ∀ x, s.spindle.quietTimer = some x → x.length ≤ (s.time - x.start).toNat →
      (waits = true ∨ s.custody.state = .ejectPending ∧
          (∃ p, ∃ e ∈ (s.ctx p).queue, e.state = .ready ∨ e.state = .inSession) →
        exec .quietTimerExpiry s = .next stopped.spinRequest.finish) ∧
      (waits = false → s.custody.state ≠ .ejectPending ∨
          (∀ p, ∀ e ∈ (s.ctx p).queue, e.state ≠ .ready ∧ e.state ≠ .inSession) →
        exec .quietTimerExpiry s = .next stopped.finish)) ∧
    (s.spindle.state = .stopped → s.spindle.restartFlag = true →
      exec .restartOnStopped s = .next
        (({ s with spindle := { s.spindle with restartFlag := false } } : State).spinRequest).finish) ∧
    (∀ x, s.spindle.idleTimer = some x → x.length ≤ (s.time - x.start).toNat →
      exec .idleSecondElapsed s = .next ({ s with spindle := { s.spindle with
        idleCount := min (s.spindle.idleCount + 1) 2550
        idleTimer := some ⟨x.start + 1000000, x.length⟩ } } : State).finish)

/-! ### Positioner steps -/

/-- The start of a move (its first pulse, or a wait of no length for distance 0), the end of a load with the
recalibration that follows (a counted seek when KNOWN, a creep when UNCERTAIN), the start of a waiting target, and the
held retract at the end of a stage, with the answer to the request that it ends. What the positioner is asked for (R39
to R41), by its state, and the seek, the recalibration and the retract that it then begins (R48, R50, R52). The model's:
a standby stop bars the load (log 19), a wait of no length (log 23). -/
def Obligations.LoadsWaitingTargetsAndRetracts : Prop :=
  (∀ s : State,
    let latched := s.params.intervals.take s.params.entries
    let seen : Custody := if s.custody.state = .mounting ∧ s.custody.step = some .loading ∧ s.custody.supplyHold = false
      then { s.custody with step := some .recalibrating } else s.custody
    let loaded : State := { s with
      pos := { s.pos with state := .recalibrating, loadTimer := none, plan := s.pos.plan.drop 1 }, custody := seen }
    let leaving : State := { s with pos := { s.pos with
      state := .retracting, request := none, plan := [], heldRetract := false, loadTimer := none, settleTimer := none } }
    let away := leaving.startMove ⟨.retract, .outward,
      if s.pos.confidence = .known then (640 - s.pos.counter).toNat else 660, 0, latched, s.params.settle⟩
    (∀ f : Profile,
      (f.distance = 0 → s.startMove f =
        { s with pos := { s.pos with profile := some f, stepTimer := some ⟨s.time, 0⟩ } }) ∧
      (f.distance ≠ 0 → s.startMove f = { s with
        carriage := if f.direction = .inward then s.carriage - 1 else min (s.carriage + 1) 640
        pos := { s.pos with
          counter := if f.direction = .inward then s.pos.counter - 1 else s.pos.counter + 1
          profile := some { f with stepIndex := f.stepIndex + 1 }
          stepTimer := some ⟨s.time, f.table.getD (min 1 (min f.distance f.table.length) - 1) 0⟩ } })) ∧
    (s.pos.state = .loading → ∀ x, s.pos.loadTimer = some x → x.length ≤ (s.time - x.start).toNat →
      (s.pos.confidence = .known → exec .loadTimerExpiry s = .next
        ((loaded.startMove ⟨.recalSeek, .inward, s.pos.counter.toNat, 0, latched, s.params.settle⟩).finish)) ∧
      (s.pos.confidence = .uncertain → exec .loadTimerExpiry s = .next
        ({ loaded with pos := { loaded.pos with
            profile := some ⟨.creep, .inward, 660, 0, latched.take 1, s.params.settle⟩
            stepTimer := some ⟨s.time, 0⟩ } } : State).finish)) ∧
    (∀ q, s.pos.state = .unloaded → s.pos.waitingTarget = some q → s.spindle.state = .atSpeed →
      s.spindle.standbyStop = false →
      exec .waitingTargetStart s = .next ({ s with pos := { s.pos with
        state := .loading, waitingTarget := none, plan := [.recalibrate, .seek q],
        loadTimer := some ⟨s.time, 50000⟩ } } : State).finish) ∧
    (s.pos.state = .recalibrating ∨ s.pos.state = .seeking ∨ s.pos.state = .settling → s.pos.heldRetract = true →
      s.pos.stepTimer = none → s.pos.settleTimer = none →
      exec .heldRetractStart s = .next (match s.pos.request with
        | some (.seek _) => away.sessionSeekAbandoned.finish
        | some .recalibrate => away.custodyRecalFailed.finish
        | none => away.finish))) ∧
  (∀ (s : State) (q : Nat),
    let latched := s.params.intervals.take s.params.entries
    let moves (k : MoveKind) (d : Direction) (n : Nat) : Profile := ⟨k, d, n, 0, latched, s.params.settle⟩
    let asked (r : PosRequest) (plan : List Stage) : State := { s with pos := { s.pos with
      request := some r, plan := plan } }
    let loading (r : PosRequest) (plan : List Stage) : State := { s with pos := { s.pos with
      state := .loading, request := some r, plan := plan, loadTimer := some ⟨s.time, 50000⟩ } }
    let seen (u : State) : State :=
      if u.custody.state = .mounting ∧ u.custody.step = some .loading ∧ u.custody.supplyHold = false then
        { u with custody := { u.custody with step := some .recalibrating } }
      else u
    let kept : State := { s with pos := { s.pos with heldRetract := true } }
    let parked : State := { s with pos := { s.pos with
      state := .unloaded, loadTimer := none, plan := [], waitingTarget := none, request := none } }
    let n := ((q : Int) - s.pos.counter).natAbs
    let f := moves .seek (if s.pos.counter < (q : Int) then .outward else .inward) n
    let turning := s.spindle.state = .atSpeed ∧ s.spindle.standbyStop = false
    s.seekRequest q = (match s.pos.state with
      | .onTrack =>
        if s.pos.confidence = .known then (asked (.seek q) s.pos.plan).beginSeek q
        else (asked (.seek q) [.seek q]).beginRecalibration
      | .unloaded =>
        if turning then loading (.seek q) [.recalibrate, .seek q]
        else { s with pos := { s.pos with request := some (.seek q), waitingTarget := some q } }
      | _ => s) ∧
    s.recalibrateRequest = (match s.pos.state with
      | .onTrack => seen (asked .recalibrate s.pos.plan).beginRecalibration
      | .unloaded =>
        if s.spindle.state = .atSpeed then loading .recalibrate [.recalibrate] else s.custodyRecalFailed
      | _ => s) ∧
    s.retractRequest = (match s.pos.state with
      | .unloaded => s.discardWaiting
      | .loading => (match s.pos.request with
        | some (.seek _) => parked.sessionSeekAbandoned
        | _ => parked)
      | .onTrack => s.beginRetract
      | .recalibrating => kept
      | .seeking => kept
      | .settling => kept
      | .retracting => s
      | .emergencyRetract => s) ∧
    s.beginSeek q = (if n = 0 then { s with pos := { s.pos with
        state := .settling, plan := [], profile := some f, stepTimer := none
        settleTimer := some ⟨s.time, s.params.settle⟩ } }
      else ({ s with pos := { s.pos with state := .seeking, plan := [], profile := some f } } : State).startMove f) ∧
    s.beginRecalibration = (if s.pos.confidence = .known then
        ({ s with pos := { s.pos with state := .recalibrating } } : State).startMove
          (moves .recalSeek .inward s.pos.counter.toNat)
      else { s with pos := { s.pos with
        state := .recalibrating, stepTimer := some ⟨s.time, 0⟩
        profile := some ⟨.creep, .inward, 660, 0, latched.take 1, s.params.settle⟩ } }) ∧
    s.beginRetract = ({ s with pos := { s.pos with
        state := .retracting, plan := [], heldRetract := false, loadTimer := none, settleTimer := none } } :
      State).startMove (moves .retract .outward
        (if s.pos.confidence = .known then (640 - s.pos.counter).toNat else 660)))

/-- A wait between steps ends: the next pulse, with the interval r(i) = min(i, D + 1 - i, N) of a profiled move or the
first of a creep; or the end of the motion, which settles a seek, a retract and a found track 0, turns a recalibration
seek that found nothing into a creep, unloads after an emergency retract, and fails after a creep of 660 steps (R51: the
condition, the notice, the retract, and the answer to the request; the order of its notices: log 16). The settle ends
ON_TRACK with the answer to the request, or in the unload. The loss of confidence (R38). A creep's first test: log 23. -/
def Obligations.StepsSettlesAndArrivals : Prop :=
  (∀ (s : State) (r : TrackZeroReading),
    let seen : Bool := match r with
      | .asCarriage => s.carriage == 0
      | .level b => b
    let found : State := { s with
      recalOutstanding := false
      pos := { s.pos with counter := 0, confidence := .known, profile := none, stepTimer := none } }
    let arrived : State := if s.pos.heldRetract = true then found else match s.pos.plan with
      | .seek q :: _ => found.beginSeek q
      | _ => { found with pos := { found.pos with state := .settling, settleTimer := some ⟨s.time, s.params.settle⟩ } }
    let unloaded : State := { s with pos := { s.pos with
      state := .unloaded, counter := 640, confidence := .known, profile := none, stepTimer := none,
      settleTimer := none } }
    let flagged : State := if s.pos.confidence = .known then s.raiseFlag .positionUncertain else s
    let onTrack : State := { s with pos := { s.pos with
      state := .onTrack, profile := none, settleTimer := none, plan := [], request := none } }
    (∀ f x, s.pos.profile = some f → s.pos.stepTimer = some x → x.length ≤ (s.time - x.start).toNat →
      let i := f.stepIndex + 1
      let settled (st : PosState) : State := { s with pos := { s.pos with
        state := st, stepTimer := none, settleTimer := some ⟨s.time, f.settle⟩ } }
      let pulsed (wait : Nat) : State := { s with
        carriage := if f.direction = .inward then s.carriage - 1 else min (s.carriage + 1) 640
        pos := { s.pos with
          counter := if f.direction = .inward then s.pos.counter - 1 else s.pos.counter + 1
          profile := some { f with stepIndex := i }, stepTimer := some ⟨s.time, wait⟩ } }
      (f.kind ≠ .creep → f.stepIndex < f.distance → exec (.stepIntervalExpiry r) s = .next
        (pulsed (f.table.getD (min i (min (f.distance + 1 - i) f.table.length) - 1) 0)).finish) ∧
      (f.distance ≤ f.stepIndex →
        (f.kind = .seek → exec (.stepIntervalExpiry r) s = .next (settled .settling).finish) ∧
        (f.kind = .retract → exec (.stepIntervalExpiry r) s = .next (settled s.pos.state).finish) ∧
        (f.kind = .emergency → exec (.stepIntervalExpiry r) s = .next unloaded.finish) ∧
        (f.kind = .recalSeek → exec (.stepIntervalExpiry r) s = .next (if seen then arrived.finish else
          ({ flagged with pos := { s.pos with
              state := .recalibrating, confidence := .uncertain, stepTimer := some ⟨s.time, 0⟩
              profile := some ⟨.creep, .inward, 660, 0, (s.params.intervals.take s.params.entries).take 1,
                s.params.settle⟩ } } : State).finish))) ∧
      (f.kind = .creep →
        (seen = true → exec (.creepIntervalExpiry r) s = .next arrived.finish) ∧
        (seen = false → f.stepIndex < f.distance →
          exec (.creepIntervalExpiry r) s = .next (pulsed (f.table.getD 0 0)).finish) ∧
        (seen = false → f.distance ≤ f.stepIndex → exec (.creepIntervalExpiry r) s = .next s.recalFailure.finish))) ∧
    (∀ x, s.pos.settleTimer = some x → x.length ≤ (s.time - x.start).toNat →
      (s.pos.state = .retracting → exec .settleTimerExpiry s = .next unloaded.finish) ∧
      (s.pos.state = .settling → s.pos.heldRetract = true → exec .settleTimerExpiry s = .next
        ({ s with pos := { s.pos with settleTimer := none } } : State).finish) ∧
      (s.pos.state = .settling → s.pos.heldRetract = false → exec .settleTimerExpiry s = .next
        (match s.pos.request with
          | some (.seek _) => onTrack.sessionSeekDone.finish
          | some .recalibrate => onTrack.custodyRecalDone.finish
          | none => onTrack.finish)))) ∧
  (∀ s : State,
    let away : State := (({ ((({ s with recalOutstanding := true } : State).raiseFlag .recalFailed).postBoth
      .positionRecalFailed) with pos := { s.pos with request := none } } : State)).beginRetract
    (s.pos.confidence = .known → s.setUncertain =
      ({ s with pos := { s.pos with confidence := .uncertain } } : State).raiseFlag .positionUncertain) ∧
    (s.pos.confidence = .uncertain → s.setUncertain = s) ∧
    s.recalFailure = (match s.pos.request with
      | some (.seek _) => ({ away with session := away.session.map fun x => { x with seekOutstanding := false } } :
          State).failSession .position .position
      | some .recalibrate => away.custodyRecalFailed
      | none => away))

/-! ### Sectors, operations and sessions -/

/-- A sector start (R31, R32): due when the starts are raised, the sector before was the last and the elapsed time from
X has reached floor(k * P / 20); one that is not due does nothing: log 2. The window before it ends: an operation still
in flight fails TIMING, a format pass has recorded its sector or fails TIMING. Then the sector is current, a DEFERRED
slot becomes ARMED, and an ARMED slot of a session that serves becomes ACTIVE with its operation. That what the window's
end arms sees the old current sector, which R78 leaves open, is the model's choice: log 4. -/
def Obligations.SectorStartsAndWindows : Prop :=
  ∀ (s : State) (k : Nat),
    let started : State := { s with seq := { s.seq with current := some k, pass := s.seq.pass.map fun _ => ⟨s.time⟩ } }
    (1 ≤ k → k ≤ 19 →
      let due := (s.spindle.state = .locking ∨ s.spindle.state = .atSpeed) ∧ s.spindle.faultPending = false ∧
        s.seq.current = some (k - 1) ∧
        ∃ a n, s.spindle.lastIndex = some a ∧ s.spindle.period = some n ∧ k * n / 20 ≤ (s.time - a).toNat
      (due → exec (.sectorStartEvent k) s = .next ((s.windowEnd).sectorStart k).finish) ∧
      (¬ due → exec (.sectorStartEvent k) s = .next s)) ∧
    (∀ o, s.seq.op = some o → s.windowEnd = s.endOperation (.failed .timing)) ∧
    (s.seq.op = none →
      (s.seq.pass = none → s.windowEnd = s) ∧
      (∀ f, s.seq.pass = some f → (s.time - f.sectorStart).toNat < 950 → s.windowEnd = s.failPass .timing) ∧
      (∀ f x c, s.seq.pass = some f → 950 ≤ (s.time - f.sectorStart).toNat → s.seq.gate = true → s.session = some x →
        s.seq.current = some c → s.windowEnd = s.setImage x.head c
          ⟨.recorded (headerBytes x.track x.head c), .recorded (dataFieldBytes (List.replicate 512 0)),
            ⟨.filled 0, .filled 0, .filled 0⟩⟩)) ∧
    ((s.session = none ∨ ∃ x, s.session = some x ∧ x.phase = .positioning) → s.sectorStart k = started) ∧
    (∀ x, s.session = some x → x.phase = .serving →
      ((s.slot k).state = .deferred → s.sectorStart k = started.setSlot k { (s.slot k) with state := .armed }) ∧
      ((s.slot k).state = .armed → x.speedSuspended = false → x.positionSuspended = false → x.failed = false →
        ∃ o : Operation, o.sector = k ∧ o.start = s.time ∧ o.headerMatched = false ∧ o.recorded = false ∧
          (∀ p tag e, (s.slot k).owner = some (.port p) → (s.slot k).tag = some tag → s.entry? p tag = some e →
            o.kind = (match e.op with | .read => .read | .write => .write | .verify => .verify) ∧
            o.buffer = e.buffers.getD ((k + 20 - e.resolved.getD 0) % 20) 16) ∧
          ((s.slot k).owner = some .drive → o.buffer = 16 ∧ ∀ r, s.driveReq = some r →
            o.kind = if r.kind = .recordWrite then .recordWrite else .recordRead) ∧
          s.sectorStart k = ({ started with seq := { started.seq with op := some o } } : State).setSlot k
            { (s.slot k) with state := .active }) ∧
      ((s.slot k).state ≠ .deferred → (s.slot k).state ≠ .armed ∨ x.speedSuspended = true ∨ x.positionSuspended = true ∨
        x.failed = true → s.sectorStart k = started))

/-- Inside a sector (R7, R82): a header that matches turns the gate on for an operation that writes while the gate law
holds; the check bytes end the field, which is then recorded whole, and turn the gate off. At the 950 microsecond point
the operation ends by its header's judgement, then by its data field: what is read goes to the buffer, unless it is only
verified. What the channel finds as it is recorded (R4, R5, R7, R8): a recorded field gives its bytes back, and a torn
or unrecorded data field fails its check. The model's: events whose condition does not hold (log 2), free bytes of torn,
cut and unrecorded fields (log 9), the free cause of a write not recorded whole (log 10), what is stored (log 18). -/
def Obligations.OperationsRunToTheirEnd : Prop :=
  (∀ (s : State) (o : Operation) (x : Session) (h : HeaderReading) (d : DataReading), s.seq.op = some o →
    s.session = some x → h.wf = true → d.wf = true →
    let judged := judgeHeader x.track x.head o.sector (s.headerFound o h)
    let law := s.spindle.state = .atSpeed ∧ s.pos.state = .onTrack ∧ s.pos.confidence = .known ∧
      s.supply.state = .high ∧ s.custody.protect = some .writable
    let writes := o.kind = .write ∨ o.kind = .recordWrite
    (o.headerMatched = false → judged = .matching →
      (writes → law → exec (.dataFieldReached h) s = .next
        { s with seq := { s.seq with op := some { o with headerMatched := true }, gate := true } }) ∧
      (¬ writes ∨ ¬ law → exec (.dataFieldReached h) s = .next
        { s with seq := { s.seq with op := some { o with headerMatched := true } } })) ∧
    (o.headerMatched = true ∨ judged ≠ .matching → exec (.dataFieldReached h) s = .next s) ∧
    (writes → s.seq.gate = true → exec .checkBytesRecorded s = .next
      { s.setImage x.head o.sector
          ⟨(s.image x.head o.sector).header, .recorded (dataFieldBytes (s.bufferBytes o.buffer)),
            (s.image x.head o.sector).gaps⟩ with
        seq := { s.seq with op := some { o with recorded := true }, gate := false } }) ∧
    (¬ writes ∨ s.seq.gate = false → exec .checkBytesRecorded s = .next s) ∧
    ((s.time - o.start).toNat < 950 → exec (.operationEndPoint h d) s = .next s) ∧
    (950 ≤ (s.time - o.start).toNat →
      let ends (t : State) (r : OpResult) : Prop := exec (.operationEndPoint h d) s = .next (t.endOperation r).finish
      (o.headerMatched = false → judged = .trackMismatch → ends s .mismatch) ∧
      (∀ c, o.headerMatched = false → judged = .failed c → ends s (.failed c)) ∧
      (o.headerMatched = true ∨ judged = .matching →
        (writes → o.recorded = true → ends s .done) ∧
        (writes → o.recorded = false → ends { s with freeCount := s.freeCount + 1 }
          (.failed (causeOf (Config.unrecordedCause s.freeCount)))) ∧
        (¬ writes →
          let found := s.dataFound o d
          let t : State := { s with freeCount := s.freeCount + 1 }
          let kept : State := if o.kind = .verify then t else t.storeBuffer o.buffer 0 found.1
          (found.2 = true → ends kept .done) ∧ (found.2 = false → ends kept (.failed .dataCheck)) ∧
          (∀ b, d = .received b → found = (b.take 512, checkGood (b.take 512) (b.drop 512))))))) ∧
  (∀ (s : State) (o : Operation) (x : Session), s.session = some x →
    let i := s.image x.head o.sector
    let bytes (seed : Nat) : List Byte := (List.range 512).map (Config.tornByte seed)
    s.headerFound o .missing = none ∧ (∀ b, s.headerFound o (.found b) = some b) ∧
    s.headerFound o .asRecorded =
      (match i.header with | .blank => none | .recorded b => some b | .cut seed => Config.cutHeader seed) ∧
    (∀ b, s.dataFound o (.received b) = (b.take 512, checkGood (b.take 512) (b.drop 512))) ∧
    (∀ b, i.data = .recorded b → s.dataFound o .asRecorded = s.dataFound o (.received b)) ∧
    (∀ b, b.length = 512 → i.data = .recorded (dataFieldBytes b) → s.dataFound o .asRecorded = (b, true)) ∧
    (∀ seed, i.data = .torn seed → s.dataFound o .asRecorded = (bytes seed, false)) ∧
    (i.data = .blank → s.dataFound o .asRecorded = (bytes s.freeCount, false)) ∧
    (∀ h k p, i.header = .recorded (headerBytes p h k) → s.headerFound o .asRecorded = some (headerBytes p h k)))

/-- What the end of an operation does to a request that is being served (R83, R86, R90), the gate being off: DONE; a
failure re-arms the slot with one retry less, or fails it with none left; the request completes with the outcome of its
slots once none is open. A first track mismatch re-arms the slot with its retries, suspends the session and asks for a
reseek with an untrusted position; a second one fails the session. With the gate on, what it was recording is torn or
cut first (R5, R9, R82; how far it had come: log 9). Entries with the discard mark or being cancelled (R65, R67, R90; a
mismatch there: log 32), drive-owned slots (R92), and the failure of a session (R87 to R90; the order of its entries:
log 16). A slot that returns to EMPTY: log 28. -/
def Obligations.OperationResultsOnSlots : Prop :=
  (∀ (s : State) (o : Operation) (p : Port) (tag : Byte) (e : Entry), s.seq.op = some o → s.seq.gate = false →
    s.slots.length = 20 → (s.slot o.sector).owner = some (.port p) → (s.slot o.sector).tag = some tag →
    s.entry? p tag = some e → e.discard = false → e.cancelling = false →
    let t : State := { s with seq := { s.seq with op := none } }
    let x := s.slot o.sector
    let judged (v : State) : State := if v.hasOpenSlot p tag then v
      else ((v.emptySlots p tag).completeEntry p tag (v.outcomeOf e)).closeJudgement
    s.endOperation .done = judged (t.setSlot o.sector { x with state := .done }) ∧
    (∀ c, x.retries = 0 →
      s.endOperation (.failed c) = judged (t.setSlot o.sector { x with state := .failed, cause := some c })) ∧
    (∀ c, x.retries ≠ 0 → s.endOperation (.failed c) = judged
      (t.setSlot o.sector { x with state := .armed, retries := x.retries - 1, cause := some c })) ∧
    (∀ y, s.session = some y →
      (y.mismatches = 0 → s.endOperation .mismatch =
        ((({ t.setSlot o.sector { x with state := .armed } with session := some { y with
          mismatches := 1, positionSuspended := true, seekOutstanding := true } } : State).setUncertain).seekRequest
            y.track)) ∧
      (y.mismatches ≠ 0 → s.endOperation .mismatch = t.setUncertain.failSession .position .position)) ∧
    (∀ v : State, v.outcomeOf e = match e.resolved with
      | none => .done
      | some f => match ((List.range e.count).map fun i => (f + i) % 20).find? fun k => (v.slot k).state == .failed with
        | none => .done
        | some k => .failed (some k) ((v.slot k).cause.getD .noHeader))) ∧
  (∀ s : State,
    let off : State := { s with seq := { s.seq with gate := false } }
    let head := match s.session with | none => 0 | some x => x.head
    let n := s.freeCount
    (∀ r, s.seq.op ≠ none → s.endOperation r = s.dropGate.endOperation r) ∧
    (∀ r, s.seq.op = none → s.endOperation r = s) ∧
    (s.seq.gate = false → s.dropGate = s) ∧
    (∀ o, s.seq.gate = true → s.seq.op = some o →
      let tears := (o.kind = .write ∨ o.kind = .recordWrite) ∧ o.recorded = false
      (tears → s.dropGate = { off.setImage head o.sector { s.image head o.sector with data := .torn n } with
        freeCount := n + 1 }) ∧
      (¬ tears → s.dropGate = off)) ∧
    (s.seq.gate = true → s.seq.op = none →
      (∀ f k, s.seq.pass = some f → s.seq.current = some k → s.dropGate =
        { off.setImage head k ⟨.cut n, .torn n, ⟨.cut n, .cut n, .cut n⟩⟩ with freeCount := n + 1 }) ∧
      (s.seq.pass = none ∨ s.seq.current = none → s.dropGate = off))) ∧
  (∀ (s : State) (o : Operation) (r : OpResult), s.seq.op = some o → s.seq.gate = false →
    let t : State := { s with seq := { s.seq with op := none } }
    let x := s.slot o.sector
    let ended (y : Slot) : State := t.setSlot o.sector y
    let mismatch (v : State) : State := match v.session with
      | none => v.setUncertain
      | some y =>
        if y.mismatches = 0 then
          (({ v with session := some { y with
            mismatches := 1, positionSuspended := true, seekOutstanding := true } } : State).setUncertain).seekRequest
              y.track
        else v.setUncertain.failSession .position .position
    (∀ p tag e, x.owner = some (.port p) → x.tag = some tag → s.entry? p tag = some e →
      let cancelled (v : State) : State :=
        (v.emptySlots p tag).completeEntry p tag (.cancelled (v.doneSlots p tag))
      (e.discard = true → s.endOperation r = (match r with
        | .mismatch => mismatch (ended Slot.blank)
        | _ => ended Slot.blank)) ∧
      (e.discard = false → e.cancelling = true → s.endOperation r = (match r with
        | .done => (cancelled (ended { x with state := .done })).closeJudgement
        | .failed c => (cancelled (ended { x with state := .failed, cause := some c })).closeJudgement
        | .mismatch => (mismatch (cancelled (ended Slot.blank))).closeJudgement))) ∧
    (x.owner = some .drive →
      s.endOperation .done = (t.reportDrive .done).closeJudgement ∧
      (∀ c, x.retries = 0 → s.endOperation (.failed c) =
        ((ended { x with state := .failed, cause := some c }).reportDrive (.failed c)).closeJudgement) ∧
      (∀ c, x.retries ≠ 0 → s.endOperation (.failed c) =
        ended { x with state := .armed, retries := x.retries - 1, cause := some c }) ∧
      (∀ y, s.session = some y → s.endOperation .mismatch =
        mismatch (if y.mismatches = 0 then ended { x with state := .armed } else t)))) ∧
  (∀ (s : State) (o : DriveOutcome),
    (s.driveReq = none → s.reportDrive o = s) ∧
    (∀ r, s.driveReq = some r →
      let t : State := { s with
        driveReq := none, slots := s.slots.map fun x => if x.owner = some .drive then Slot.blank else x }
      s.reportDrive o = (match r.requester with
        | .custody => t.recordReadJudgement o
        | .maintenance p => t.maintenanceEnd p o))) ∧
  (∀ (s : State) (cause active : Cause),
    (s.session = none → s.failSession cause active = s) ∧
    (∀ x, s.session = some x →
      let off : State := { s.dropGate with
        seq := { s.dropGate.seq with op := none, pass := none }
        session := some { x with failed := true, passDue := false } }
      let discarded (y : Slot) : Bool := [Port.a, .b].any fun p => (off.ctx p).queue.any fun e =>
        decide (e.discard = true ∧ y.owner = some (.port p) ∧ y.tag = some e.tag)
      let fails (y : Slot) : Slot :=
        if y.state = .empty ∨ y.state = .done ∨ y.state = .failed then y
        else if discarded y then Slot.blank
        else { y with state := .failed, cause := some (if y.state = .active then active else cause) }
      let failed : State := { off with slots := off.slots.map fails }
      let ends (p : Port) (u : State) (e : Entry) : State :=
        if e.discard then u
        else if e.cancelling then (u.emptySlots p e.tag).completeEntry p e.tag (.cancelled (u.doneSlots p e.tag))
        else if e.resolved.isSome then (u.emptySlots p e.tag).completeEntry p e.tag (u.outcomeOf e)
        else u.completeEntry p e.tag
          (.failed (match e.first with | .absolute k => some k | .earliest => none) cause)
      let served (p : Port) (u : State) : State :=
        ((u.ctx p).queue.filter fun e => decide (e.state = .inSession)).foldl (ends p) u
      let ended := served .b (served .a failed)
      let told := if x.owner = .drive then
          ended.reportDrive (.failed
            (if s.slots.any fun y => decide (y.owner = some .drive ∧ y.state = .active) then active else cause))
        else ended
      s.failSession cause active = (if told.pos.waitingTarget = none then told
        else { told with
          pos := { told.pos with waitingTarget := none, request := none }
          session := told.session.map fun x => { x with seekOutstanding := false } }).closeJudgement))

/-- The arbiter's choice (R73 to R75, R92), a resumed session (R85), a discarded entry's removal (R67) and the start of
a format pass (R93). A drive-owned request goes first; else the port with a candidate, or the one that did not have the
last turn; the session is served at once where the heads stand at its position, and asks for its seek elsewhere. Which
entries are eligible (R73, R121) and which may join (R77), how an entry is armed (R76, R78, R79), the arming pass, the
close judgement (R91) and the answers to the session's seek (R39, R75). The model's: a choice or a resumption with
nothing to do (log 2), the order of the entries judged together (log 16), the close of a resumed session (log 24), the
moment of the pass (log 22). -/
def Obligations.SessionsOpenAndGoOn : Prop :=
  (∀ s : State,
    let opens (u : State) (track head : Nat) (owner : OwnerKind) : State := { u with session := some ⟨track, head, owner,
      .positioning, decide (s.spindle.state ≠ .atSpeed), false, 0, 0, false, false, false⟩ }
    let sought (v : State) (track : Nat) : State :=
      if s.pos.state = .onTrack ∧ s.pos.confidence = .known ∧ s.pos.counter = (track : Int) then v.armingPass
      else (v.updSession fun x => { x with seekOutstanding := true }).seekRequest track
    let candidate (p : Port) := (s.ctx p).queue.find? fun e => e.state == .ready && s.eligible p e
    (s.session = none → s.pos.state = .onTrack ∨ s.pos.state = .unloaded →
      (∀ r, s.driveReq = some r → exec .arbiterChoice s = .next
        (sought (opens s r.track r.head .drive) r.track).finish) ∧
      (s.driveReq = none →
        (candidate .a = none → candidate .b = none → exec .arbiterChoice s = .next s) ∧
        (∀ p e, candidate p = some e → candidate p.other = none ∨ s.turn = p.other →
          let track := Machine.translate s.copy e.track
          exec .arbiterChoice s = .next
            (sought ((opens { s with turn := p } track e.head .station).updEntry p e.tag fun e =>
              { e with state := .inSession, position := some track }) track).finish))) ∧
    (∀ x, s.session = some x →
      let speedBack := x.speedSuspended = true ∧ s.spindle.state = .atSpeed
      let placeBack := x.positionSuspended = true ∧ x.seekOutstanding = false ∧ s.pos.state = .onTrack
      let y : Session := { x with
        speedSuspended := x.speedSuspended && !decide (s.spindle.state = .atSpeed)
        positionSuspended := x.positionSuspended && !decide (x.seekOutstanding = false ∧ s.pos.state = .onTrack) }
      let v : State := { s with session := some y }
      (¬ speedBack → ¬ placeBack → exec .sessionResume s = .next s) ∧
      (speedBack ∨ placeBack →
        (y.speedSuspended = true ∨ y.positionSuspended = true ∨ x.phase = .positioning →
          exec .sessionResume s = .next v.finish) ∧
        (y.speedSuspended = false → y.positionSuspended = false → x.phase = .serving →
          exec .sessionResume s = .next v.rejudgeArmed.closeJudgement.finish))) ∧
    (∀ p e, (s.ctx p).queue.find? (fun e => e.discard && e.state == .inSession && !s.hasActiveSlot p e.tag) = some e →
      exec (.discardedEntryRemoval p) s = .next (((s.emptySlots p e.tag).removeEntry p e.tag).closeJudgement).finish) ∧
    (∀ x, s.session = some x → x.passDue = true → x.owner = .drive → x.phase = .serving → x.speedSuspended = false →
      x.positionSuspended = false → x.failed = false → s.seq.pass = none → s.seq.op = none → s.seq.current = some 0 →
      s.spindle.state = .atSpeed → s.pos.state = .onTrack → s.pos.confidence = .known → s.supply.state = .high →
      s.custody.protect = some .writable →
      exec .formatPassStart s = .next { s with
        session := some { x with passDue := false }
        seq := { s.seq with pass := some ⟨s.spindle.lastIndex.getD s.time⟩, gate := true } })) ∧
  (∀ (s : State) (p : Port) (e : Entry),
    s.eligible p e = true ↔ ∀ r, s.reservation = some r → r.holder = p ∨ r.mode = .write ∧ e.op ≠ .write) ∧
  (∀ (s : State) (p : Port) (tag : Byte) (e : Entry), s.entry? p tag = some e →
    let c := s.seq.current.getD 0
    let first := match e.first with | .absolute k => k | .earliest => (c + s.params.lead) % 20
    let joins (x : Session) : Prop :=
      e.state = .ready ∧ x.revolutions < 3 ∧ x.phase = .serving ∧ x.speedSuspended = false ∧
      x.positionSuspended = false ∧ x.failed = false ∧ x.owner = .station ∧ s.eligible p e = true ∧
      Machine.translate s.copy e.track = x.track ∧ e.head = x.head ∧
      ∀ i, i < e.count → (s.slot ((first + i) % 20)).state = .empty
    (s.session = none → s.judgeJoin p tag = s) ∧
    (∀ x, s.session = some x →
      (joins x → s.judgeJoin p tag =
        (s.updEntry p tag fun e => { e with state := .inSession, position := some x.track }).armEntry p tag) ∧
      (¬ joins x → s.judgeJoin p tag = s)) ∧
    ∃ slots : List Slot,
      s.armEntry p tag = { s.updEntry p tag fun e => { e with resolved := some first } with slots := slots } ∧
      slots.length = s.slots.length ∧
      (∀ k, (∃ i, i < e.count ∧ k = (first + i) % 20) → k < s.slots.length → slots[k]? = some
        ⟨if s.params.lead ≤ (k + 20 - c) % 20 then .armed else .deferred, some (.port p), some tag, e.retry, none⟩) ∧
      (∀ k, (∀ i, i < e.count → k ≠ (first + i) % 20) → slots[k]? = s.slots[k]?)) ∧
  (∀ s : State,
    let c := s.seq.current.getD 0
    let judge (p : Port) (u : State) : State :=
      ((u.ctx p).queue.filter fun e => decide (e.state = .ready)).foldl (fun v e => v.judgeJoin p e.tag) u
    let arm (p : Port) (u : State) : State :=
      ((u.ctx p).queue.filter fun e => decide (e.state = .inSession ∧ e.discard = false ∧ e.resolved = none)).foldl
        (fun v e => v.armEntry p e.tag) u
    let judged := s.judgeJoins
    s.judgeJoins = judge .b (judge .a s) ∧
    s.rejudgeArmed = { s with slots := s.slots.mapIdx fun k y =>
      if y.state = .armed then
        { y with state := if s.params.lead ≤ (k + 20 - c) % 20 then .armed else .deferred }
      else y } ∧
    (judged.session = none → s.closeJudgement = judged) ∧
    (∀ x, judged.session = some x →
      let closes := (∀ y ∈ judged.slots, y.state = .empty) ∧
        (∀ p, ∀ e ∈ (judged.ctx p).queue, e.state ≠ .inSession) ∧
        (x.seekOutstanding = false ∨ judged.pos.waitingTarget ≠ none) ∧ (x.owner = .drive → judged.driveReq = none)
      (closes → s.closeJudgement = { judged with
        session := none
        pos := if judged.pos.waitingTarget = none then judged.pos
          else { judged.pos with waitingTarget := none, request := none } }) ∧
      (¬ closes → s.closeJudgement = judged)) ∧
    (s.session = none → s.armingPass = s ∧ s.resumeSession = s ∧ s.sessionSeekDone = s ∧ s.sessionSeekAbandoned = s) ∧
    (∀ x, s.session = some x →
      let serves : State := { s with session := some { x with phase := .serving } }
      let armed : State := if x.owner = .drive then (match s.driveReq with
          | none => serves
          | some r => if r.kind = .formatPass then serves else { serves with
              slots := s.slots.set 0
                ⟨if s.params.lead ≤ (20 - c) % 20 then .armed else .deferred, some .drive, none, 3, none⟩ })
        else (arm .b (arm .a serves)).judgeJoins
      let y : Session := { x with
        speedSuspended := x.speedSuspended && !decide (s.spindle.state = .atSpeed)
        positionSuspended := x.positionSuspended && !decide (x.seekOutstanding = false ∧ s.pos.state = .onTrack) }
      let v : State := { s with session := some y }
      let answered : State := { s with session := some { x with seekOutstanding := false } }
      s.armingPass = (if armed.slots.all fun y => decide (y.state = .empty) then armed.closeJudgement else armed) ∧
      s.resumeSession = (if (x.speedSuspended || x.positionSuspended) && !(y.speedSuspended || y.positionSuspended) &&
          decide (x.phase = .serving) then v.rejudgeArmed.closeJudgement else v) ∧
      s.sessionSeekDone = (if x.failed then answered.closeJudgement
        else if x.phase = .positioning then answered.armingPass else answered) ∧
      s.sessionSeekAbandoned = (if x.failed then answered.closeJudgement else answered)) ∧
    (s.pos.waitingTarget = none → s.discardWaiting = s) ∧
    (s.pos.waitingTarget ≠ none → s.discardWaiting =
      ({ s with pos := { s.pos with waitingTarget := none, request := none } } : State).sessionSeekAbandoned))

/-! ### Custody, the panel and the supply -/

/-- Insertion, latching and the steps of a mount: the sensors, the debounce and latch timers, the sample of the
write-protect sensor, and what a rejection does; the answers to the recalibration (R99), the outcome of the record read
(R100), and the mount's completion in the order of R101 with the generation's rise (R102). The model's: events whose
condition does not hold (log 2), locks at a withdrawal (log 12) and a deferred eject kept there (log 13), a forced
rejection that waits for the record read (log 25), the latch confirmed by the event alone (log 33). -/
def Obligations.InsertionAndMountSteps : Prop :=
  (∀ s : State,
    let c := s.custody
    let absent : Pins := { s.pins with present := false }
    let latching := c.state = .mounting ∧ c.step = some .latching
    (∀ m : Medium, m.wf = true →
      (s.pins.present = true → exec (.presentSensorActive m) s = .next s) ∧
      (s.pins.present = false → c.state = .empty → exec (.presentSensorActive m) s = .next { s with
        pins := { s.pins with present := true }, medium := m
        custody := { c with state := .inserted, debounceTimer := some ⟨s.time, 500000⟩ } }) ∧
      (s.pins.present = false → c.state ≠ .empty → exec (.presentSensorActive m) s = .next
        { s with pins := { s.pins with present := true } })) ∧
    (c.state = .inserted ∨ latching → exec .presentSensorInactive s = .next ((({ s with
      pins := absent, medium := []
      custody := { c with state := .empty, step := none, debounceTimer := none, latchTimer := none,
                          forcedRejection := none } } : State).updBoth fun x => { x with lockHeld := false }).finish)) ∧
    (c.state ≠ .inserted → c.state ≠ .releasing → c.state ≠ .jammed → ¬ latching →
      exec .presentSensorInactive s = .next { s with pins := absent }) ∧
    (c.state = .inserted → ∀ x, c.debounceTimer = some x → x.length ≤ (s.time - x.start).toNat →
      exec .debounceTimerExpiry s = .next ({ s with custody := { c with
        state := .mounting, step := some .latching, debounceTimer := none, latchPulse := some ⟨s.time, 80000⟩,
        latchTimer := some ⟨s.time, 300000⟩, lastMount := none } } : State).finish) ∧
    (∀ w : Bool,
      let read : Pins := { s.pins with latch := true, writeProtect := w }
      let held : Custody := { c with
        latched := true, latchTimer := none, protect := some (if w then .isProtected else .writable) }
      (latching → c.forcedRejection = none → exec (.latchSensorLatched w) s = .next
        (({ s with pins := read, custody := { held with
            step := some .spinning, supplyHold := !decide (s.supply.state = .high) } } : State).spinRequest).finish) ∧
      (latching → ∀ r, c.forcedRejection = some r → exec (.latchSensorLatched w) s = .next
        (({ s with pins := read, custody := held } : State).rejectMount r).finish) ∧
      (¬ latching → exec (.latchSensorLatched w) s = .next { s with pins := read })) ∧
    (latching → ∀ x, c.latchTimer = some x → x.length ≤ (s.time - x.start).toNat →
      exec .latchTimerExpiry s = .next (s.rejectMount .latch).finish) ∧
    (∀ r, s.rejectMount r = ((((({ s with custody := { c with
        ejectCause := .reject, step := none, lastMount := some (.rejected r), deferredEject := false,
        forcedRejection := none, latchTimer := none, supplyHold := false } } : State).updBoth fun x =>
          { x with lockHeld := false }).postBoth (.mediumRejected r)).updCustody fun u =>
            { u with state := .unmounting, stopSent := false, attemptDue := false }).retractRequest)) ∧
    (∀ x, c.latchPulse = some x → x.length ≤ (s.time - x.start).toNat →
      exec .latchPulseEnd s = .next { s with custody := { c with latchPulse := none } }) ∧
    (c.state = .mounting → c.step = some .spinning → c.supplyHold = false → s.spindle.state = .atSpeed →
      s.spindle.standbyStop = false →
      (s.pos.state = .unloaded → exec .mountStepLoading s = .next ({ s with
        custody := { c with step := some .loading }
        pos := { s.pos with state := .loading, request := some .recalibrate, plan := [.recalibrate],
                            loadTimer := some ⟨s.time, 50000⟩ } } : State).finish) ∧
      (s.pos.state = .onTrack → exec .mountStepLoading s = .next (({ s with
        custody := { c with step := some .recalibrating }
        pos := { s.pos with request := some .recalibrate } } : State).beginRecalibration).finish))) ∧
  (∀ s : State,
    let c := s.custody
    let mounts (k : MountStep) : Bool := decide (c.state = .mounting ∧ c.step = some k ∧ c.supplyHold = false)
    let raised : Nat := if c.generation = 255 then 1 else c.generation + 1
    let read := s.bufferBytes 16
    s.enterSpinning = ({ s with custody := { c with
      step := some .spinning, supplyHold := !decide (s.supply.state = .high) } } : State).spinRequest ∧
    s.custodyRecalFailed = (if mounts .loading then s.enterSpinning
      else if mounts .recalibrating then s.rejectMount .position else s) ∧
    s.custodyRecalDone = (if mounts .recalibrating then { s with
        custody := { c with step := some .readingRecord }, driveReq := some ⟨.recordRead, 0, 0, .custody⟩ } else s) ∧
    (∀ o : DriveOutcome,
      (mounts .readingRecord = false → s.recordReadJudgement o = s) ∧
      (mounts .readingRecord = true →
        (∀ r, c.forcedRejection = some r → s.recordReadJudgement o = s.rejectMount r) ∧
        (c.forcedRejection = none → s.recordReadJudgement o = (match o with
          | .done => s.mountComplete (if validRecord read then some (decodeRecord read) else none)
          | .failed .speed => s.rejectMount .spindle
          | .failed .position => if s.pos.state = .retracting ∨ s.pos.state = .unloaded then s.rejectMount .position
              else s.mountComplete none
          | .failed .supply => s
          | .failed _ => s.mountComplete none)))) ∧
    (∀ copy : Option MediaRecord,
      let t : State := ((({ s with
        copy := copy
        custody := { c with
          state := if copy = none then .blank else .mounted, step := none, generation := raised } } :
        State).updBoth fun x => { x with lockHeld := false }).postBoth
          (if copy = none then .mediumBlank else .mediumMounted))
      let u : State := { t with custody := { t.custody with
        lastMount := some (if copy = none then .blank else .mounted) } }
      (c.deferredEject = false → s.mountComplete copy = u) ∧
      (c.deferredEject = true → s.mountComplete copy =
        ({ u with custody := { u.custody with deferredEject := false } } : State).shortPress)))

/-- Leaving: the drain ends in UNMOUNTING with a retract request, the stop request brakes a spindle that turns, the
eject law and a high supply let the first pulse of an attempt go, each pulse is followed by the release timer, and the
second timer in vain is JAMMED. The sensor reading inactive completes the release: the copy, the sample and the locks are
gone, and MEDIUM_REMOVED is posted unless the mount was rejected. -/
def Obligations.UnmountAndRelease : Prop :=
  ∀ s : State,
    let c := s.custody
    let pulsed (u : Custody) : State := { s with custody := { u with
      ejectPulse := some ⟨s.time, 80000⟩, jamCount := u.jamCount + 1, attemptDue := false
      latched := if u.jamCount = 0 then false else u.latched } }
    let attempt : Custody := { c with state := .releasing, jamCount := 0, releaseTimer := none, attemptDue := true }
    (c.state = .ejectPending → s.session = none →
      (∀ p, ∀ e ∈ (s.ctx p).queue, e.state ≠ .ready ∧ e.state ≠ .inSession) →
      (∀ p m, (s.ctx p).maint = some m → m.outcome ≠ none) →
      exec .drainComplete s = .next (({ s with custody := { c with
        state := .unmounting, step := none, stopSent := false, attemptDue := false } } : State).retractRequest).finish) ∧
    (c.state = .unmounting → c.stopSent = false → s.pos.state = .unloaded →
      let told : State := { s with custody := { c with stopSent := true }
                                   spindle := { s.spindle with restartFlag := false } }
      (s.spindle.state = .starting ∨ s.spindle.state = .locking ∨ s.spindle.state = .atSpeed →
        exec .unmountStopRequest s = .next ({ told with
          spindle := { told.spindle with
            state := .braking, duty := 0, firstIndexTimer := none, lockTimer := none, absenceTimer := none,
            regainTimer := none, quietTimer := some ⟨s.time, 400000⟩, faultPending := false, standbyStop := false }
          seq := { s.seq with current := none } } : State).finish) ∧
      (s.spindle.state = .stopped ∨ s.spindle.state = .braking ∨ s.spindle.state = .coasting →
        exec .unmountStopRequest s = .next told.finish)) ∧
    (c.state = .unmounting → c.stopSent = true → s.pos.state = .unloaded → s.spindle.state = .stopped →
      exec .releaseAttemptStart s = .next (if s.supply.state = .high then pulsed attempt
        else { s with custody := attempt })) ∧
    (c.state = .releasing → c.attemptDue = true → s.pos.state = .unloaded → s.spindle.state = .stopped →
      s.supply.state = .high → exec .releaseAttemptStart s = .next (pulsed c)) ∧
    (∀ x, c.ejectPulse = some x → x.length ≤ (s.time - x.start).toNat →
      exec .ejectPulseEnd s = .next { s with custody := { c with
        ejectPulse := none
        releaseTimer := if c.state = .releasing then some ⟨s.time, 2000000⟩ else c.releaseTimer } }) ∧
    (c.state = .releasing → ∀ x, c.releaseTimer = some x → x.length ≤ (s.time - x.start).toNat →
      (2 ≤ c.jamCount → exec .releaseTimerExpiry s = .next
        (({ s with custody := { c with state := .jammed, releaseTimer := none } } : State).raiseFlag .ejectJammed)) ∧
      (c.jamCount < 2 → s.supply.state = .high → s.pos.state = .unloaded → s.spindle.state = .stopped →
        exec .releaseTimerExpiry s = .next (pulsed { c with releaseTimer := none }))) ∧
    (c.state = .releasing ∨ c.state = .jammed →
      let empty : State := ({ s with
        pins := { s.pins with present := false }, copy := none, medium := []
        custody := { c with
          state := .empty, releaseTimer := none, protect := none, latched := false, jamCount := 0,
          deferredEject := false, attemptDue := false, stopSent := false, ejectCause := .none } } : State).updBoth
            fun x => { x with lockHeld := false }
      (c.ejectCause = .reject → exec .presentSensorInactive s = .next empty.finish) ∧
      (c.ejectCause ≠ .reject →
        exec .presentSensorInactive s = .next (empty.postBoth (.mediumRemoved c.ejectCause)).finish))

/-- The panel and the reservation's idle timer. A press starts the hold timer; its end before the timer is a short
press, the timer's expiry a long one. A short press ejects, waits for the mount, is refused while a lock or an EXCLUSIVE
reservation is held, or tries a jammed cartridge again; a long press breaks locks, reservation and requests. Neither
does anything with the supply low, nor in EMPTY, INSERTED, UNMOUNTING and RELEASING, nor a short one in EJECT_PENDING
(R105, R106). Whom a refused press asks, and the outputs that follow from the state: the lamps, the attention lines, the
solenoids and the brake (R18, R36, R97, R110, R147, R153, R154). A button event that repeats the button's level, or has
no press to end: log 2. The order of the entries that a long press cancels: log 16. -/
def Obligations.PanelAndReservationTimer : Prop :=
  (∀ s : State,
    (s.pins.button = true → exec .buttonDown s = .next s) ∧
    (s.pins.button = false → exec .buttonDown s = .next { s with
      pins := { s.pins with button := true }
      custody := { s.custody with holdTimer := some ⟨s.time, 5000000⟩ } }) ∧
    (let up : Pins := { s.pins with button := false }
     (s.custody.holdTimer = none → exec .buttonUp s = .next { s with pins := up }) ∧
     (s.custody.holdTimer ≠ none → exec .buttonUp s = .next
       (({ s with pins := up, custody := { s.custody with holdTimer := none } } : State).shortPress).finish)) ∧
    (∀ x, s.custody.holdTimer = some x → x.length ≤ (s.time - x.start).toNat → exec .holdTimerExpiry s = .next
      (({ s with custody := { s.custody with holdTimer := none } } : State).longPress).finish) ∧
    (∀ x, s.custody.attentionTimer = some x → x.length ≤ (s.time - x.start).toNat → exec .attentionTimerExpiry s = .next
      { s with custody := { s.custody with attentionTimer := none } }) ∧
    (s.supply.state ≠ .high → s.shortPress = s ∧ s.longPress = s) ∧
    (s.supply.state = .high →
      let refused := (∃ p, (s.ctx p).lockHeld = true) ∨ ∃ r, s.reservation = some r ∧ r.mode = .exclusive
      let pending (u : State) (cause : EjectCause) : State := { u with custody := { u.custody with
        state := .ejectPending, ejectCause := cause } }
      let retried : State := { s with custody := { s.custody with
        state := .releasing, jamCount := 0, releaseTimer := none, attemptDue := true } }
      let broken := (s.updBoth fun x => { x with lockHeld := false }).breakReservation
      let swept := broken.cancelAll fun _ => true
      (s.custody.state = .mounted ∨ s.custody.state = .blank →
        (¬ refused → s.shortPress =
          if s.anyEntryIn .ready then (pending s .panel).spinRequest else pending s .panel)) ∧
      (s.custody.state = .mounted ∨ s.custody.state = .blank ∨ s.custody.state = .mounting → refused →
        s.shortPress = ((({ s with custody := { s.custody with attentionTimer := some ⟨s.time, 3000000⟩ } } :
          State).askPort .a).askPort .b)) ∧
      (s.custody.state = .mounting → ¬ refused →
        s.shortPress = { s with custody := { s.custody with deferredEject := true } }) ∧
      (s.custody.state = .jammed → s.shortPress = retried ∧ s.longPress = retried) ∧
      (s.custody.state = .empty ∨ s.custody.state = .inserted ∨ s.custody.state = .unmounting ∨
        s.custody.state = .releasing → s.shortPress = s ∧ s.longPress = s) ∧
      (s.custody.state = .ejectPending → s.shortPress = s) ∧
      (s.custody.state = .mounted ∨ s.custody.state = .blank ∨ s.custody.state = .ejectPending →
        s.longPress = if swept.anyEntryIn .ready then (pending swept .forced).spinRequest else pending swept .forced) ∧
      (s.custody.state = .mounting →
        (s.custody.step = some .latching → s.longPress =
          { broken with custody := { broken.custody with forcedRejection := some .latch } }) ∧
        (s.custody.step = some .readingRecord → s.longPress =
          { broken with custody := { broken.custody with forcedRejection := some .position } }) ∧
        (s.custody.step = some .spinning → s.longPress = broken.rejectMount .spindle) ∧
        (s.custody.step = some .loading ∨ s.custody.step = some .recalibrating →
          s.longPress = broken.rejectMount .position))) ∧
    (∀ r x, s.reservation = some r → r.timer = some x → x.length ≤ (s.time - x.start).toNat →
      exec .reservationIdleTimerExpiry s = .next
        (((({ s with reservation := none } : State).post r.holder .reservationExpired).post r.holder.other
          .reservationFreed).judgeJoins).finish)) ∧
  (∀ s : State,
    (s.lockedLamp = true ↔ s.custody.latched = true) ∧
    (s.attentionLamp = true ↔ s.custody.attentionTimer ≠ none ∨ s.custody.state = .jammed) ∧
    (s.busyLamp = true ↔ s.session ≠ none ∨ s.pos.state ≠ .unloaded ∧ s.pos.state ≠ .onTrack) ∧
    (∀ p, s.attentionLine p = true ↔ (s.ctx p).notices ≠ []) ∧
    (s.headLoadOn = true ↔ s.pos.state ≠ .unloaded) ∧
    (s.latchSolenoidOn = true ↔ s.custody.latchPulse ≠ none) ∧
    (s.ejectSolenoidOn = true ↔ s.custody.ejectPulse ≠ none) ∧
    (s.brakeOn = true ↔ s.spindle.state = .braking) ∧
    (s.reservation = none → s.breakReservation = s) ∧
    (∀ r, s.reservation = some r → s.breakReservation =
      ((({ s with reservation := none } : State).post r.holder .reservationBroken).post r.holder.other
        .reservationFreed).judgeJoins) ∧
    (∀ p, let holds := ∃ r, s.reservation = some r ∧ r.holder = p
      (holds → (s.ctx p).lockHeld = true → s.askPort p = s.post p (.ejectAsked .both)) ∧
      (holds → (s.ctx p).lockHeld = false → s.askPort p = s.post p (.ejectAsked .reservation)) ∧
      (¬ holds → (s.ctx p).lockHeld = true → s.askPort p = s.post p (.ejectAsked .lock)) ∧
      (¬ holds → (s.ctx p).lockHeld = false → s.askPort p = s)))

/-- The supply: a falling edge in HIGH runs the cascade, which leaves the gate off, the session failed, no drive-owned
request, no READY entry and no inbound phase, the heads on their way out, and a spindle that brakes if they were parked
and else coasts; a rising edge in LOW starts the recovery timer; recovery is told, lifts the supply hold of a mount, and
begins a new release attempt. Each block's part of the cascade: the cause TORN or SUPPLY of the operation in flight
(R89), the emergency retract's distance and confidence (R53), the spindle (R26), custody (R113), and the DATA_TIMEOUT
answers (R142). The order of the blocks, and port A before port B, which R142 and R148 leave open, are the model's
choice: log 16. An edge in HIGH while COASTING: log 36. -/
def Obligations.SupplyEdgesAndRecovery : Prop :=
  (∀ s : State,
    let low : Pins := { s.pins with comparatorHigh := false }
    let high : Pins := { s.pins with comparatorHigh := true }
    (s.supply.state = .high → exec .supplyFallingEdge s = .next ({ s with pins := low } : State).cascade.finish) ∧
    (s.supply.state = .low → exec .supplyFallingEdge s = .next { s with pins := low }) ∧
    (s.supply.state = .recovering →
      exec .supplyFallingEdge s = .next { s with pins := low, supply := ⟨.low, none⟩ }) ∧
    (let t := s.cascade
     t.supply = ⟨.low, none⟩ ∧ t.seq.gate = false ∧ t.driveReq = none ∧ t.spindle.restartFlag = false ∧
     t.spindle.standbyFlag = false ∧ t.spindle.faultPending = false ∧ t.spindle.standbyStop = false ∧
     (∀ x, t.session = some x → x.failed = true) ∧
     (∀ p, (s.ctx p).linkPresent = true → (t.ctx p).conditions.supplyLow = true) ∧
     (∀ p, (t.link p).state ≠ .dataIn ∧ ∀ e ∈ (t.ctx p).queue, e.state ≠ .ready) ∧
     (let turning := s.spindle.state = .starting ∨ s.spindle.state = .locking ∨ s.spindle.state = .atSpeed
      let parked := s.pos.state = .unloaded ∨ s.pos.state = .loading
      (turning → parked → t.spindle.state = .braking ∧ t.spindle.duty = 0) ∧
      (turning → ¬ parked → t.spindle.state = .coasting ∧ t.spindle.duty = 0) ∧
      (¬ turning → t.spindle.state = s.spindle.state ∧ t.spindle.duty = s.spindle.duty) ∧
      (parked → t.pos.state = .unloaded) ∧
      (¬ parked → t.pos.state = .emergencyRetract ∨ t.pos.state = .unloaded))) ∧
    (s.supply.state = .low → exec .supplyRisingEdge s = .next
      { s with pins := high, supply := ⟨.recovering, some ⟨s.time, 100000⟩⟩ }) ∧
    (s.supply.state ≠ .low → exec .supplyRisingEdge s = .next { s with pins := high }) ∧
    (s.supply.state = .recovering → ∀ x, s.supply.recoveryTimer = some x → x.length ≤ (s.time - x.start).toNat →
      let told := ({ s with supply := ⟨.high, none⟩ } : State).postBoth .supplyRecovered
      (s.custody.state = .mounting → s.custody.supplyHold = true → exec .recoveryTimerExpiry s = .next
        (({ told with custody := { s.custody with supplyHold := false } } : State).spinRequest).finish) ∧
      (s.custody.state = .releasing → exec .recoveryTimerExpiry s = .next ({ told with custody := { s.custody with
        jamCount := 0, releaseTimer := none, attemptDue := true } } : State).finish) ∧
      ((s.custody.state = .mounting → s.custody.supplyHold = false) → s.custody.state ≠ .releasing →
        exec .recoveryTimerExpiry s = .next told.finish))) ∧
  (∀ s : State,
    let told : State := ((({ s with supply := ⟨.low, none⟩ } : State).raiseFlag .supplyLow).postBoth .supplyLow).dropGate
    let failReady (p : Port) (u : State) : State :=
      ((u.ctx p).queue.filter fun e => decide (e.state = .ready)).foldl (fun v e => v.completeEntry p e.tag
        (.failed (match e.first with | .absolute k => some k | .earliest => none) .supply)) u
    let endPhase (p : Port) (u : State) : State :=
      if (u.link p).state = .dataIn then (match (u.link p).work with
        | .writeData tag => (u.removeEntry p tag).respond p 0x19 tag .dataTimeout []
        | .mediaRecord tag => (u.updCtx p fun c => { c with maint := none }).respond p 0x29 tag .dataTimeout []
        | _ => u.respond p 0x30 0 .dataTimeout [])
      else u
    s.cascade = endPhase .b (endPhase .a (failReady .b (failReady .a
      (((((told.posSupplyEdge).spindleSupplyEdge
          (decide (s.pos.state = .unloaded ∨ s.pos.state = .loading))).custodySupplyEdge).failSession .supply
            (if s.seq.gate then .torn else .supply)).reportDrive (.failed .supply)))))) ∧
  (∀ (s : State) (parked : Bool),
    let cleared : State := { s with
      pos := { s.pos with
        profile := none, waitingTarget := none, heldRetract := false, plan := [], request := none, loadTimer := none,
        stepTimer := none, settleTimer := none }
      session := s.session.map fun x => { x with seekOutstanding := false } }
    let distance : Nat := if s.pos.confidence = .known then (640 - s.pos.counter).toNat
      else match s.pos.profile with
        | some f => if f.kind = .retract then 660 - f.stepIndex else 660
        | none => 660
    let away (u : State) : State := if distance = 0 then { u with pos := { u.pos with
        state := .unloaded, counter := 640, confidence := .known, profile := none, stepTimer := none,
        settleTimer := none } }
      else ({ u with pos := { u.pos with state := .emergencyRetract } } : State).startMove
        ⟨.emergency, .outward, distance, 0, u.params.intervals.take u.params.entries, u.params.settle⟩
    let waits : Bool := decide (s.custody.state = .mounting ∧ s.custody.step = some .spinning ∧
      s.custody.supplyHold = false ∧ s.supply.state = .high)
    let off : Spindle := { s.spindle with
      firstIndexTimer := none, lockTimer := none, absenceTimer := none, regainTimer := none, idleCount := 0
      idleTimer := none, restartFlag := false, standbyFlag := false, faultPending := false, standbyStop := false }
    s.posSupplyEdge = (match s.pos.state with
      | .unloaded => cleared
      | .loading => { cleared with pos := { cleared.pos with state := .unloaded } }
      | .onTrack => away cleared
      | .recalibrating => away cleared.setUncertain
      | .seeking => away cleared.setUncertain
      | .settling => away cleared.setUncertain
      | .retracting => away cleared
      | .emergencyRetract => s) ∧
    s.spindleSupplyEdge parked = { s with
      seq := { s.seq with current := none }
      spindle := if s.spindle.state = .starting ∨ s.spindle.state = .locking ∨ s.spindle.state = .atSpeed then
          if parked then { off with
            state := .braking, duty := 0, quietTimer := some ⟨s.time, 400000⟩, restartFlag := waits }
          else { off with state := .coasting, duty := 0, quietTimer := none }
        else off } ∧
    s.custodySupplyEdge = (match s.custody.state, s.custody.step, s.custody.forcedRejection with
      | .mounting, some .latching, _ => s
      | .mounting, _, some r => s.rejectMount r
      | .mounting, _, none => { s with custody := { s.custody with step := some .spinning, supplyHold := true } }
      | .releasing, _, _ => { s with custody := { s.custody with releaseTimer := none } }
      | _, _, _ => s))
end

