-- ==== Sys2Proof/Laws/Finish.lean ====
section
/-! SUPPORT. What the closing operation of a step (`State.finish`) can change. -/

namespace Sys2Proof.Machine

/-- The gate's drop touches the sequencer's gate, the medium and the free-value counter alone. -/
theorem dropGate_frame (s : State) : s.dropGate =
    { s with seq := { s.seq with gate := false }, medium := s.dropGate.medium, freeCount := s.dropGate.freeCount } := by
  unfold State.dropGate
  split
  · rename_i h
    have hg : s.seq.gate = false := by simpa using h
    rw [← hg]
  · dsimp only
    repeat' split
    all_goals rfl

theorem dropGate_seq (s : State) : s.dropGate.seq = { s.seq with gate := false } := by rw [dropGate_frame]

theorem dropGateByLaw_frame (s : State) : s.dropGateByLaw =
    { s with seq := { s.seq with gate := s.dropGateByLaw.seq.gate }, medium := s.dropGateByLaw.medium,
             freeCount := s.dropGateByLaw.freeCount } := by
  unfold State.dropGateByLaw
  split
  · rfl
  · rw [dropGate_seq]
    exact dropGate_frame s

/-- A move that starts touches the positioner and the carriage alone. -/
theorem startMove_frame (s : State) (f : Profile) : s.startMove f =
    { s with pos := (s.startMove f).pos, carriage := (s.startMove f).carriage } := by
  unfold State.startMove
  split <;> rfl

/-- A retract that begins touches the positioner and the carriage alone. -/
theorem beginRetract_frame (s : State) : s.beginRetract =
    { s with pos := s.beginRetract.pos, carriage := s.beginRetract.carriage } := by
  unfold State.beginRetract
  dsimp only
  rw [startMove_frame]
  rfl

/-- The idle judgement touches the idle timer, its count, the standby stop, the positioner and the carriage alone. -/
theorem judgeIdle_frame (s : State) : s.judgeIdle =
    { s with
      spindle := { s.spindle with
        idleTimer := s.judgeIdle.spindle.idleTimer, idleCount := s.judgeIdle.spindle.idleCount,
        standbyStop := s.judgeIdle.spindle.standbyStop }
      pos := s.judgeIdle.pos, carriage := s.judgeIdle.carriage } := by
  unfold State.judgeIdle
  split
  · have key : ∀ t : State, (∃ n x b, t = { s with spindle := { s.spindle with
        idleTimer := n, idleCount := x, standbyStop := b } }) →
        (if t.standbyWanted then t.takeStandby else t) = { s with
          spindle := { s.spindle with
            idleTimer := (if t.standbyWanted then t.takeStandby else t).spindle.idleTimer
            idleCount := (if t.standbyWanted then t.takeStandby else t).spindle.idleCount
            standbyStop := (if t.standbyWanted then t.takeStandby else t).spindle.standbyStop }
          pos := (if t.standbyWanted then t.takeStandby else t).pos
          carriage := (if t.standbyWanted then t.takeStandby else t).carriage } := by
      rintro t ⟨n, x, b, rfl⟩
      split
      · unfold State.takeStandby
        dsimp only
        split
        · rw [beginRetract_frame]; rfl
        · rfl
      · rfl
    refine key _ ?_
    split
    · exact ⟨_, _, _, rfl⟩
    · exact ⟨_, _, _, rfl⟩
  · rfl

/-- `finish` touches the idle timer, its count, the standby stop, the positioner, the carriage, the gate, the medium and
the free-value counter alone. -/
theorem finish_frame (s : State) : s.finish =
    { s with
      spindle := { s.spindle with
        idleTimer := s.finish.spindle.idleTimer, idleCount := s.finish.spindle.idleCount,
        standbyStop := s.finish.spindle.standbyStop }
      pos := s.finish.pos
      carriage := s.finish.carriage
      seq := { s.seq with gate := s.finish.seq.gate }
      medium := s.finish.medium
      freeCount := s.finish.freeCount } := by
  unfold State.finish
  obtain ⟨n, x, b, y, c, h⟩ : ∃ n x b y c, s.judgeIdle = { s with
      spindle := { s.spindle with idleTimer := n, idleCount := x, standbyStop := b }, pos := y, carriage := c } :=
    ⟨_, _, _, _, _, judgeIdle_frame s⟩
  obtain ⟨g, m, f, k⟩ : ∃ g m f, s.judgeIdle.dropGateByLaw = { s.judgeIdle with
      seq := { s.judgeIdle.seq with gate := g }, medium := m, freeCount := f } := ⟨_, _, _, dropGateByLaw_frame _⟩
  rw [k, h]

end Sys2Proof.Machine
end

