-- ==== Sys2Proof/Laws/Memory.lean ====
section
/-! SUPPORT. The sparse maps: what a read gives after a write, and that every write keeps the canonical form. -/

namespace Sys2Proof.Machine

variable {α : Type} [DecidableEq α]

/-- Raising the lower bound that the keys must pass is harmless while the map respects the new one. -/
theorem sparseWfAbove_cons (d : α) (low : Option Nat) (k : Nat) (v : α) (rest : List (Nat × α)) :
    sparseWfAbove d low ((k, v) :: rest) = true ↔
      (∀ l, low = some l → l < k) ∧ v ≠ d ∧ sparseWfAbove d (some k) rest = true := by
  cases low <;> simp [sparseWfAbove, and_assoc]

/-- A map above a key is above every smaller key. -/
theorem sparseWfAbove_weaken (d : α) (a b : Nat) (m : List (Nat × α)) (hab : a ≤ b)
    (h : sparseWfAbove d (some b) m = true) : sparseWfAbove d (some a) m = true := by
  cases m with
  | nil => rfl
  | cons e rest =>
    obtain ⟨k, v⟩ := e
    rw [sparseWfAbove_cons] at h ⊢
    exact ⟨fun l hl => by cases hl; have := h.1 b rfl; omega, h.2⟩

/-- A map above a bound is in canonical form. -/
theorem sparseWfAbove_none (d : α) (low : Option Nat) (m : List (Nat × α))
    (h : sparseWfAbove d low m = true) : sparseWfAbove d none m = true := by
  cases m with
  | nil => rfl
  | cons e rest =>
    obtain ⟨k, v⟩ := e
    rw [sparseWfAbove_cons] at h ⊢
    exact ⟨fun l hl => (by cases hl), h.2⟩

/-- A write above the bound keeps the canonical form. -/
theorem sparseSet_wfAbove (d : α) (m : List (Nat × α)) (a : Nat) (v : α) :
    ∀ low, (∀ l, low = some l → l < a) → sparseWfAbove d low m = true →
      sparseWfAbove d low (sparseSet d m a v) = true := by
  induction m with
  | nil =>
    intro low hl _
    unfold sparseSet
    split
    · rfl
    · rw [sparseWfAbove_cons]; exact ⟨hl, ‹_›, rfl⟩
  | cons e rest ih =>
    obtain ⟨k, w⟩ := e
    intro low hl h
    have h' := (sparseWfAbove_cons d low k w rest).1 h
    unfold sparseSet
    split
    · rename_i hak
      split
      · exact h
      · rw [sparseWfAbove_cons]
        refine ⟨hl, ‹_›, ?_⟩
        rw [sparseWfAbove_cons]
        exact ⟨fun l hl' => by cases hl'; exact hak, h'.2⟩
    · split
      · rename_i _ hak
        subst hak
        split
        · cases low with
          | none => exact sparseWfAbove_none d _ _ h'.2.2
          | some l => exact sparseWfAbove_weaken d l a rest (by have := h'.1 l rfl; omega) h'.2.2
        · rw [sparseWfAbove_cons]; exact ⟨hl, ‹_›, h'.2.2⟩
      · rw [sparseWfAbove_cons]
        refine ⟨h'.1, h'.2.1, ih (some k) ?_ h'.2.2⟩
        intro l hl'; cases hl'; omega

/-- A write keeps the canonical form. -/
theorem sparseSet_wf (d : α) (m : List (Nat × α)) (a : Nat) (v : α) (h : sparseWf d m = true) :
    sparseWf d (sparseSet d m a v) = true :=
  sparseSet_wfAbove d m a v none (fun _ h => by cases h) h

/-- A key at or below the bound is not listed. -/
theorem sparseGet_below (d : α) (m : List (Nat × α)) (a b : Nat) (hab : a ≤ b)
    (h : sparseWfAbove d (some b) m = true) : sparseGet d m a = d := by
  induction m generalizing b with
  | nil => rfl
  | cons e rest ih =>
    obtain ⟨k, v⟩ := e
    have h' := (sparseWfAbove_cons d (some b) k v rest).1 h
    have hk := h'.1 b rfl
    unfold sparseGet
    rw [if_neg (by omega)]
    exact ih k (by omega) h'.2.2

/-- A read after a write at the same key gives the value written. -/
theorem sparseGet_sparseSet_same (d : α) (m : List (Nat × α)) (a : Nat) (v : α) :
    ∀ low, sparseWfAbove d low m = true → sparseGet d (sparseSet d m a v) a = v := by
  induction m with
  | nil =>
    intro _ _
    unfold sparseSet
    split
    · rename_i h; subst h; rfl
    · simp [sparseGet]
  | cons e rest ih =>
    obtain ⟨k, w⟩ := e
    intro low h
    have h' := (sparseWfAbove_cons d low k w rest).1 h
    unfold sparseSet
    split
    · rename_i hak
      split
      · rename_i hv; subst hv
        unfold sparseGet
        rw [if_neg (by omega)]
        exact sparseGet_below _ rest a k (by omega) h'.2.2
      · simp [sparseGet]
    · split
      · rename_i _ hak
        subst hak
        split
        · rename_i hv; subst hv
          exact sparseGet_below _ rest a a (le_refl a) h'.2.2
        · simp [sparseGet]
      · rename_i hak
        unfold sparseGet
        rw [if_neg hak]
        exact ih (some k) h'.2.2

/-- A write leaves every other key as it reads. -/
theorem sparseGet_sparseSet_ne (d : α) (m : List (Nat × α)) (a b : Nat) (v : α) (hab : b ≠ a) :
    ∀ low, sparseWfAbove d low m = true → sparseGet d (sparseSet d m a v) b = sparseGet d m b := by
  induction m with
  | nil =>
    intro _ _
    unfold sparseSet
    split
    · rfl
    · simp [sparseGet, hab]
  | cons e rest ih =>
    obtain ⟨k, w⟩ := e
    intro low h
    have h' := (sparseWfAbove_cons d low k w rest).1 h
    unfold sparseSet
    split
    · split
      · rfl
      · simp [sparseGet, hab]
    · split
      · rename_i _ hak
        subst hak
        split
        · simp [sparseGet, hab]
        · simp [sparseGet, hab]
      · unfold sparseGet
        split
        · rfl
        · exact ih (some k) h'.2.2

/-! ### The buffer RAM -/

/-- Storing bytes keeps the canonical form. -/
theorem storeBytes_wf (m : List Host.Cell) (a : Nat) (l : List Byte) (h : Memory.wf m = true) :
    Memory.wf (storeBytes m a l) = true := by
  induction l generalizing m a with
  | nil => exact h
  | cons b rest ih => exact ih _ _ (sparseSet_wf ramDefault m a b h)

/-- A byte outside the stored range reads as before. -/
theorem storeBytes_outside (m : List Host.Cell) (a : Nat) (l : List Byte) (b : Nat) (h : Memory.wf m = true)
    (hb : b < a ∨ a + l.length ≤ b) : sparseGet ramDefault (storeBytes m a l) b = sparseGet ramDefault m b := by
  induction l generalizing m a with
  | nil => rfl
  | cons x rest ih =>
    simp only [storeBytes]
    simp only [List.length_cons] at hb
    rw [ih _ _ (sparseSet_wf ramDefault m a x h) (by omega)]
    exact sparseGet_sparseSet_ne ramDefault m a b x (by omega) none h

/-- A byte of the stored range reads as the byte stored there. -/
theorem storeBytes_inside (m : List Host.Cell) (a : Nat) (l : List Byte) (i : Nat) (h : Memory.wf m = true)
    (hi : i < l.length) : sparseGet ramDefault (storeBytes m a l) (a + i) = l[i] := by
  induction l generalizing m a i with
  | nil => simp at hi
  | cons x rest ih =>
    simp only [storeBytes]
    have hw := sparseSet_wf ramDefault m a x h
    cases i with
    | zero =>
      exact (storeBytes_outside _ (a + 1) rest a hw (by omega)).trans
        (sparseGet_sparseSet_same ramDefault m a x none h)
    | succ j =>
      have := ih (sparseSet ramDefault m a x) (a + 1) j hw (by simpa using hi)
      rw [show a + (j + 1) = a + 1 + j by omega]
      simpa using this

/-- A list is the values that a function takes at its indexes. -/
theorem map_range_eq (n : Nat) (f : Nat → Byte) (l : List Byte) (hl : l.length = n)
    (hf : ∀ (i : Nat) (hi : i < l.length), f i = l[i]) : (List.range n).map f = l := by
  apply List.ext_getElem
  · rw [List.length_map, List.length_range, hl]
  · intro i _ h2
    rw [List.getElem_map, List.getElem_range]
    exact hf i h2

/-- Buffer `b` holds the 512 bytes just stored into it whole. -/
theorem State.bufferBytes_storeBuffer (s : State) (b : Nat) (l : List Byte) (h : Memory.wf s.ram = true)
    (hl : l.length = 512) : (s.storeBuffer b 0 l).bufferBytes b = l := by
  rw [State.bufferBytes]
  refine map_range_eq 512 (fun i => (s.storeBuffer b 0 l).ramByte (512 * b + i)) l hl ?_
  intro i hi
  unfold State.ramByte State.storeBuffer
  generalize 512 * b = a
  exact storeBytes_inside s.ram a l i h hi

/-- Another buffer keeps its bytes. -/
theorem State.bufferBytes_storeBuffer_ne (s : State) (b c : Nat) (l : List Byte) (h : Memory.wf s.ram = true)
    (hl : l.length = 512) (hbc : c ≠ b) : (s.storeBuffer b 0 l).bufferBytes c = s.bufferBytes c := by
  rw [State.bufferBytes, State.bufferBytes]
  refine List.map_congr_left ?_
  intro i hi
  rw [List.mem_range] at hi
  unfold State.ramByte State.storeBuffer
  refine storeBytes_outside s.ram _ l _ h ?_
  omega

/-! ### The medium -/

/-- The canonical form of a cartridge gives that of the sparse map. -/
theorem wfAbove_sparseWfAbove (low : Option Nat) (m : Medium) (h : Medium.wfAbove low m = true) :
    sparseWfAbove SectorImage.unrecorded low m = true := by
  induction m generalizing low with
  | nil => rfl
  | cons e rest ih =>
    obtain ⟨k, i⟩ := e
    simp only [Medium.wfAbove, Bool.and_eq_true] at h
    rw [sparseWfAbove_cons]
    refine ⟨?_, ?_, ih _ h.2⟩
    · intro l hl; subst hl; simpa using h.1.1.1
    · have := h.1.2
      simp only [SectorImage.wf, Bool.and_eq_true, bne_iff_ne] at this
      exact this.2

end Sys2Proof.Machine
end

