-- ==== Sys2Proof/Laws/State.lean ====
section
/-! SUPPORT. One lemma per field per update of `State`: what the named updates change, and what they leave. -/

namespace Sys2Proof.Machine

/-! ### updSpindle -/

@[simp] theorem State.updSpindle_time (s : State) (f : Spindle → Spindle) : (s.updSpindle f).time = s.time := rfl
@[simp] theorem State.updSpindle_pins (s : State) (f : Spindle → Spindle) : (s.updSpindle f).pins = s.pins := rfl
@[simp] theorem State.updSpindle_spindle (s : State) (f : Spindle → Spindle) : (s.updSpindle f).spindle = f s.spindle := rfl
@[simp] theorem State.updSpindle_pos (s : State) (f : Spindle → Spindle) : (s.updSpindle f).pos = s.pos := rfl
@[simp] theorem State.updSpindle_seq (s : State) (f : Spindle → Spindle) : (s.updSpindle f).seq = s.seq := rfl
@[simp] theorem State.updSpindle_session (s : State) (f : Spindle → Spindle) : (s.updSpindle f).session = s.session := rfl
@[simp] theorem State.updSpindle_slots (s : State) (f : Spindle → Spindle) : (s.updSpindle f).slots = s.slots := rfl
@[simp] theorem State.updSpindle_turn (s : State) (f : Spindle → Spindle) : (s.updSpindle f).turn = s.turn := rfl
@[simp] theorem State.updSpindle_driveReq (s : State) (f : Spindle → Spindle) : (s.updSpindle f).driveReq = s.driveReq := rfl
@[simp] theorem State.updSpindle_ram (s : State) (f : Spindle → Spindle) : (s.updSpindle f).ram = s.ram := rfl
@[simp] theorem State.updSpindle_pool (s : State) (f : Spindle → Spindle) : (s.updSpindle f).pool = s.pool := rfl
@[simp] theorem State.updSpindle_portA (s : State) (f : Spindle → Spindle) : (s.updSpindle f).portA = s.portA := rfl
@[simp] theorem State.updSpindle_portB (s : State) (f : Spindle → Spindle) : (s.updSpindle f).portB = s.portB := rfl
@[simp] theorem State.updSpindle_custody (s : State) (f : Spindle → Spindle) : (s.updSpindle f).custody = s.custody := rfl
@[simp] theorem State.updSpindle_copy (s : State) (f : Spindle → Spindle) : (s.updSpindle f).copy = s.copy := rfl
@[simp] theorem State.updSpindle_reservation (s : State) (f : Spindle → Spindle) : (s.updSpindle f).reservation = s.reservation := rfl
@[simp] theorem State.updSpindle_supply (s : State) (f : Spindle → Spindle) : (s.updSpindle f).supply = s.supply := rfl
@[simp] theorem State.updSpindle_params (s : State) (f : Spindle → Spindle) : (s.updSpindle f).params = s.params := rfl
@[simp] theorem State.updSpindle_faultOutstanding (s : State) (f : Spindle → Spindle) : (s.updSpindle f).faultOutstanding = s.faultOutstanding := rfl
@[simp] theorem State.updSpindle_recalOutstanding (s : State) (f : Spindle → Spindle) : (s.updSpindle f).recalOutstanding = s.recalOutstanding := rfl
@[simp] theorem State.updSpindle_medium (s : State) (f : Spindle → Spindle) : (s.updSpindle f).medium = s.medium := rfl
@[simp] theorem State.updSpindle_carriage (s : State) (f : Spindle → Spindle) : (s.updSpindle f).carriage = s.carriage := rfl
@[simp] theorem State.updSpindle_freeCount (s : State) (f : Spindle → Spindle) : (s.updSpindle f).freeCount = s.freeCount := rfl
@[simp] theorem State.updSpindle_pending (s : State) (f : Spindle → Spindle) : (s.updSpindle f).pending = s.pending := rfl

/-! ### updPos -/

@[simp] theorem State.updPos_time (s : State) (f : Positioner → Positioner) : (s.updPos f).time = s.time := rfl
@[simp] theorem State.updPos_pins (s : State) (f : Positioner → Positioner) : (s.updPos f).pins = s.pins := rfl
@[simp] theorem State.updPos_spindle (s : State) (f : Positioner → Positioner) : (s.updPos f).spindle = s.spindle := rfl
@[simp] theorem State.updPos_pos (s : State) (f : Positioner → Positioner) : (s.updPos f).pos = f s.pos := rfl
@[simp] theorem State.updPos_seq (s : State) (f : Positioner → Positioner) : (s.updPos f).seq = s.seq := rfl
@[simp] theorem State.updPos_session (s : State) (f : Positioner → Positioner) : (s.updPos f).session = s.session := rfl
@[simp] theorem State.updPos_slots (s : State) (f : Positioner → Positioner) : (s.updPos f).slots = s.slots := rfl
@[simp] theorem State.updPos_turn (s : State) (f : Positioner → Positioner) : (s.updPos f).turn = s.turn := rfl
@[simp] theorem State.updPos_driveReq (s : State) (f : Positioner → Positioner) : (s.updPos f).driveReq = s.driveReq := rfl
@[simp] theorem State.updPos_ram (s : State) (f : Positioner → Positioner) : (s.updPos f).ram = s.ram := rfl
@[simp] theorem State.updPos_pool (s : State) (f : Positioner → Positioner) : (s.updPos f).pool = s.pool := rfl
@[simp] theorem State.updPos_portA (s : State) (f : Positioner → Positioner) : (s.updPos f).portA = s.portA := rfl
@[simp] theorem State.updPos_portB (s : State) (f : Positioner → Positioner) : (s.updPos f).portB = s.portB := rfl
@[simp] theorem State.updPos_custody (s : State) (f : Positioner → Positioner) : (s.updPos f).custody = s.custody := rfl
@[simp] theorem State.updPos_copy (s : State) (f : Positioner → Positioner) : (s.updPos f).copy = s.copy := rfl
@[simp] theorem State.updPos_reservation (s : State) (f : Positioner → Positioner) : (s.updPos f).reservation = s.reservation := rfl
@[simp] theorem State.updPos_supply (s : State) (f : Positioner → Positioner) : (s.updPos f).supply = s.supply := rfl
@[simp] theorem State.updPos_params (s : State) (f : Positioner → Positioner) : (s.updPos f).params = s.params := rfl
@[simp] theorem State.updPos_faultOutstanding (s : State) (f : Positioner → Positioner) : (s.updPos f).faultOutstanding = s.faultOutstanding := rfl
@[simp] theorem State.updPos_recalOutstanding (s : State) (f : Positioner → Positioner) : (s.updPos f).recalOutstanding = s.recalOutstanding := rfl
@[simp] theorem State.updPos_medium (s : State) (f : Positioner → Positioner) : (s.updPos f).medium = s.medium := rfl
@[simp] theorem State.updPos_carriage (s : State) (f : Positioner → Positioner) : (s.updPos f).carriage = s.carriage := rfl
@[simp] theorem State.updPos_freeCount (s : State) (f : Positioner → Positioner) : (s.updPos f).freeCount = s.freeCount := rfl
@[simp] theorem State.updPos_pending (s : State) (f : Positioner → Positioner) : (s.updPos f).pending = s.pending := rfl

/-! ### updCustody -/

@[simp] theorem State.updCustody_time (s : State) (f : Custody → Custody) : (s.updCustody f).time = s.time := rfl
@[simp] theorem State.updCustody_pins (s : State) (f : Custody → Custody) : (s.updCustody f).pins = s.pins := rfl
@[simp] theorem State.updCustody_spindle (s : State) (f : Custody → Custody) : (s.updCustody f).spindle = s.spindle := rfl
@[simp] theorem State.updCustody_pos (s : State) (f : Custody → Custody) : (s.updCustody f).pos = s.pos := rfl
@[simp] theorem State.updCustody_seq (s : State) (f : Custody → Custody) : (s.updCustody f).seq = s.seq := rfl
@[simp] theorem State.updCustody_session (s : State) (f : Custody → Custody) : (s.updCustody f).session = s.session := rfl
@[simp] theorem State.updCustody_slots (s : State) (f : Custody → Custody) : (s.updCustody f).slots = s.slots := rfl
@[simp] theorem State.updCustody_turn (s : State) (f : Custody → Custody) : (s.updCustody f).turn = s.turn := rfl
@[simp] theorem State.updCustody_driveReq (s : State) (f : Custody → Custody) : (s.updCustody f).driveReq = s.driveReq := rfl
@[simp] theorem State.updCustody_ram (s : State) (f : Custody → Custody) : (s.updCustody f).ram = s.ram := rfl
@[simp] theorem State.updCustody_pool (s : State) (f : Custody → Custody) : (s.updCustody f).pool = s.pool := rfl
@[simp] theorem State.updCustody_portA (s : State) (f : Custody → Custody) : (s.updCustody f).portA = s.portA := rfl
@[simp] theorem State.updCustody_portB (s : State) (f : Custody → Custody) : (s.updCustody f).portB = s.portB := rfl
@[simp] theorem State.updCustody_custody (s : State) (f : Custody → Custody) : (s.updCustody f).custody = f s.custody := rfl
@[simp] theorem State.updCustody_copy (s : State) (f : Custody → Custody) : (s.updCustody f).copy = s.copy := rfl
@[simp] theorem State.updCustody_reservation (s : State) (f : Custody → Custody) : (s.updCustody f).reservation = s.reservation := rfl
@[simp] theorem State.updCustody_supply (s : State) (f : Custody → Custody) : (s.updCustody f).supply = s.supply := rfl
@[simp] theorem State.updCustody_params (s : State) (f : Custody → Custody) : (s.updCustody f).params = s.params := rfl
@[simp] theorem State.updCustody_faultOutstanding (s : State) (f : Custody → Custody) : (s.updCustody f).faultOutstanding = s.faultOutstanding := rfl
@[simp] theorem State.updCustody_recalOutstanding (s : State) (f : Custody → Custody) : (s.updCustody f).recalOutstanding = s.recalOutstanding := rfl
@[simp] theorem State.updCustody_medium (s : State) (f : Custody → Custody) : (s.updCustody f).medium = s.medium := rfl
@[simp] theorem State.updCustody_carriage (s : State) (f : Custody → Custody) : (s.updCustody f).carriage = s.carriage := rfl
@[simp] theorem State.updCustody_freeCount (s : State) (f : Custody → Custody) : (s.updCustody f).freeCount = s.freeCount := rfl
@[simp] theorem State.updCustody_pending (s : State) (f : Custody → Custody) : (s.updCustody f).pending = s.pending := rfl

/-! ### updSession -/

@[simp] theorem State.updSession_time (s : State) (f : Session → Session) : (s.updSession f).time = s.time := rfl
@[simp] theorem State.updSession_pins (s : State) (f : Session → Session) : (s.updSession f).pins = s.pins := rfl
@[simp] theorem State.updSession_spindle (s : State) (f : Session → Session) : (s.updSession f).spindle = s.spindle := rfl
@[simp] theorem State.updSession_pos (s : State) (f : Session → Session) : (s.updSession f).pos = s.pos := rfl
@[simp] theorem State.updSession_seq (s : State) (f : Session → Session) : (s.updSession f).seq = s.seq := rfl
@[simp] theorem State.updSession_session (s : State) (f : Session → Session) : (s.updSession f).session = s.session.map f := rfl
@[simp] theorem State.updSession_slots (s : State) (f : Session → Session) : (s.updSession f).slots = s.slots := rfl
@[simp] theorem State.updSession_turn (s : State) (f : Session → Session) : (s.updSession f).turn = s.turn := rfl
@[simp] theorem State.updSession_driveReq (s : State) (f : Session → Session) : (s.updSession f).driveReq = s.driveReq := rfl
@[simp] theorem State.updSession_ram (s : State) (f : Session → Session) : (s.updSession f).ram = s.ram := rfl
@[simp] theorem State.updSession_pool (s : State) (f : Session → Session) : (s.updSession f).pool = s.pool := rfl
@[simp] theorem State.updSession_portA (s : State) (f : Session → Session) : (s.updSession f).portA = s.portA := rfl
@[simp] theorem State.updSession_portB (s : State) (f : Session → Session) : (s.updSession f).portB = s.portB := rfl
@[simp] theorem State.updSession_custody (s : State) (f : Session → Session) : (s.updSession f).custody = s.custody := rfl
@[simp] theorem State.updSession_copy (s : State) (f : Session → Session) : (s.updSession f).copy = s.copy := rfl
@[simp] theorem State.updSession_reservation (s : State) (f : Session → Session) : (s.updSession f).reservation = s.reservation := rfl
@[simp] theorem State.updSession_supply (s : State) (f : Session → Session) : (s.updSession f).supply = s.supply := rfl
@[simp] theorem State.updSession_params (s : State) (f : Session → Session) : (s.updSession f).params = s.params := rfl
@[simp] theorem State.updSession_faultOutstanding (s : State) (f : Session → Session) : (s.updSession f).faultOutstanding = s.faultOutstanding := rfl
@[simp] theorem State.updSession_recalOutstanding (s : State) (f : Session → Session) : (s.updSession f).recalOutstanding = s.recalOutstanding := rfl
@[simp] theorem State.updSession_medium (s : State) (f : Session → Session) : (s.updSession f).medium = s.medium := rfl
@[simp] theorem State.updSession_carriage (s : State) (f : Session → Session) : (s.updSession f).carriage = s.carriage := rfl
@[simp] theorem State.updSession_freeCount (s : State) (f : Session → Session) : (s.updSession f).freeCount = s.freeCount := rfl
@[simp] theorem State.updSession_pending (s : State) (f : Session → Session) : (s.updSession f).pending = s.pending := rfl

/-! ### mapSlots -/

@[simp] theorem State.mapSlots_time (s : State) (f : Slot → Slot) : (s.mapSlots f).time = s.time := rfl
@[simp] theorem State.mapSlots_pins (s : State) (f : Slot → Slot) : (s.mapSlots f).pins = s.pins := rfl
@[simp] theorem State.mapSlots_spindle (s : State) (f : Slot → Slot) : (s.mapSlots f).spindle = s.spindle := rfl
@[simp] theorem State.mapSlots_pos (s : State) (f : Slot → Slot) : (s.mapSlots f).pos = s.pos := rfl
@[simp] theorem State.mapSlots_seq (s : State) (f : Slot → Slot) : (s.mapSlots f).seq = s.seq := rfl
@[simp] theorem State.mapSlots_session (s : State) (f : Slot → Slot) : (s.mapSlots f).session = s.session := rfl
@[simp] theorem State.mapSlots_slots (s : State) (f : Slot → Slot) : (s.mapSlots f).slots = s.slots.map f := rfl
@[simp] theorem State.mapSlots_turn (s : State) (f : Slot → Slot) : (s.mapSlots f).turn = s.turn := rfl
@[simp] theorem State.mapSlots_driveReq (s : State) (f : Slot → Slot) : (s.mapSlots f).driveReq = s.driveReq := rfl
@[simp] theorem State.mapSlots_ram (s : State) (f : Slot → Slot) : (s.mapSlots f).ram = s.ram := rfl
@[simp] theorem State.mapSlots_pool (s : State) (f : Slot → Slot) : (s.mapSlots f).pool = s.pool := rfl
@[simp] theorem State.mapSlots_portA (s : State) (f : Slot → Slot) : (s.mapSlots f).portA = s.portA := rfl
@[simp] theorem State.mapSlots_portB (s : State) (f : Slot → Slot) : (s.mapSlots f).portB = s.portB := rfl
@[simp] theorem State.mapSlots_custody (s : State) (f : Slot → Slot) : (s.mapSlots f).custody = s.custody := rfl
@[simp] theorem State.mapSlots_copy (s : State) (f : Slot → Slot) : (s.mapSlots f).copy = s.copy := rfl
@[simp] theorem State.mapSlots_reservation (s : State) (f : Slot → Slot) : (s.mapSlots f).reservation = s.reservation := rfl
@[simp] theorem State.mapSlots_supply (s : State) (f : Slot → Slot) : (s.mapSlots f).supply = s.supply := rfl
@[simp] theorem State.mapSlots_params (s : State) (f : Slot → Slot) : (s.mapSlots f).params = s.params := rfl
@[simp] theorem State.mapSlots_faultOutstanding (s : State) (f : Slot → Slot) : (s.mapSlots f).faultOutstanding = s.faultOutstanding := rfl
@[simp] theorem State.mapSlots_recalOutstanding (s : State) (f : Slot → Slot) : (s.mapSlots f).recalOutstanding = s.recalOutstanding := rfl
@[simp] theorem State.mapSlots_medium (s : State) (f : Slot → Slot) : (s.mapSlots f).medium = s.medium := rfl
@[simp] theorem State.mapSlots_carriage (s : State) (f : Slot → Slot) : (s.mapSlots f).carriage = s.carriage := rfl
@[simp] theorem State.mapSlots_freeCount (s : State) (f : Slot → Slot) : (s.mapSlots f).freeCount = s.freeCount := rfl
@[simp] theorem State.mapSlots_pending (s : State) (f : Slot → Slot) : (s.mapSlots f).pending = s.pending := rfl

/-! ### setSlot -/

@[simp] theorem State.setSlot_time (s : State) (k : Nat) (x : Slot) : (s.setSlot k x).time = s.time := rfl
@[simp] theorem State.setSlot_pins (s : State) (k : Nat) (x : Slot) : (s.setSlot k x).pins = s.pins := rfl
@[simp] theorem State.setSlot_spindle (s : State) (k : Nat) (x : Slot) : (s.setSlot k x).spindle = s.spindle := rfl
@[simp] theorem State.setSlot_pos (s : State) (k : Nat) (x : Slot) : (s.setSlot k x).pos = s.pos := rfl
@[simp] theorem State.setSlot_seq (s : State) (k : Nat) (x : Slot) : (s.setSlot k x).seq = s.seq := rfl
@[simp] theorem State.setSlot_session (s : State) (k : Nat) (x : Slot) : (s.setSlot k x).session = s.session := rfl
@[simp] theorem State.setSlot_slots (s : State) (k : Nat) (x : Slot) : (s.setSlot k x).slots = s.slots.set k x := rfl
@[simp] theorem State.setSlot_turn (s : State) (k : Nat) (x : Slot) : (s.setSlot k x).turn = s.turn := rfl
@[simp] theorem State.setSlot_driveReq (s : State) (k : Nat) (x : Slot) : (s.setSlot k x).driveReq = s.driveReq := rfl
@[simp] theorem State.setSlot_ram (s : State) (k : Nat) (x : Slot) : (s.setSlot k x).ram = s.ram := rfl
@[simp] theorem State.setSlot_pool (s : State) (k : Nat) (x : Slot) : (s.setSlot k x).pool = s.pool := rfl
@[simp] theorem State.setSlot_portA (s : State) (k : Nat) (x : Slot) : (s.setSlot k x).portA = s.portA := rfl
@[simp] theorem State.setSlot_portB (s : State) (k : Nat) (x : Slot) : (s.setSlot k x).portB = s.portB := rfl
@[simp] theorem State.setSlot_custody (s : State) (k : Nat) (x : Slot) : (s.setSlot k x).custody = s.custody := rfl
@[simp] theorem State.setSlot_copy (s : State) (k : Nat) (x : Slot) : (s.setSlot k x).copy = s.copy := rfl
@[simp] theorem State.setSlot_reservation (s : State) (k : Nat) (x : Slot) : (s.setSlot k x).reservation = s.reservation := rfl
@[simp] theorem State.setSlot_supply (s : State) (k : Nat) (x : Slot) : (s.setSlot k x).supply = s.supply := rfl
@[simp] theorem State.setSlot_params (s : State) (k : Nat) (x : Slot) : (s.setSlot k x).params = s.params := rfl
@[simp] theorem State.setSlot_faultOutstanding (s : State) (k : Nat) (x : Slot) : (s.setSlot k x).faultOutstanding = s.faultOutstanding := rfl
@[simp] theorem State.setSlot_recalOutstanding (s : State) (k : Nat) (x : Slot) : (s.setSlot k x).recalOutstanding = s.recalOutstanding := rfl
@[simp] theorem State.setSlot_medium (s : State) (k : Nat) (x : Slot) : (s.setSlot k x).medium = s.medium := rfl
@[simp] theorem State.setSlot_carriage (s : State) (k : Nat) (x : Slot) : (s.setSlot k x).carriage = s.carriage := rfl
@[simp] theorem State.setSlot_freeCount (s : State) (k : Nat) (x : Slot) : (s.setSlot k x).freeCount = s.freeCount := rfl
@[simp] theorem State.setSlot_pending (s : State) (k : Nat) (x : Slot) : (s.setSlot k x).pending = s.pending := rfl

/-! ### assignBuffers -/

@[simp] theorem State.assignBuffers_time (s : State) (l : List Nat) (h : Option Port) : (s.assignBuffers l h).time = s.time := rfl
@[simp] theorem State.assignBuffers_pins (s : State) (l : List Nat) (h : Option Port) : (s.assignBuffers l h).pins = s.pins := rfl
@[simp] theorem State.assignBuffers_spindle (s : State) (l : List Nat) (h : Option Port) : (s.assignBuffers l h).spindle = s.spindle := rfl
@[simp] theorem State.assignBuffers_pos (s : State) (l : List Nat) (h : Option Port) : (s.assignBuffers l h).pos = s.pos := rfl
@[simp] theorem State.assignBuffers_seq (s : State) (l : List Nat) (h : Option Port) : (s.assignBuffers l h).seq = s.seq := rfl
@[simp] theorem State.assignBuffers_session (s : State) (l : List Nat) (h : Option Port) : (s.assignBuffers l h).session = s.session := rfl
@[simp] theorem State.assignBuffers_slots (s : State) (l : List Nat) (h : Option Port) : (s.assignBuffers l h).slots = s.slots := rfl
@[simp] theorem State.assignBuffers_turn (s : State) (l : List Nat) (h : Option Port) : (s.assignBuffers l h).turn = s.turn := rfl
@[simp] theorem State.assignBuffers_driveReq (s : State) (l : List Nat) (h : Option Port) : (s.assignBuffers l h).driveReq = s.driveReq := rfl
@[simp] theorem State.assignBuffers_ram (s : State) (l : List Nat) (h : Option Port) : (s.assignBuffers l h).ram = s.ram := rfl
@[simp] theorem State.assignBuffers_pool (s : State) (l : List Nat) (h : Option Port) : (s.assignBuffers l h).pool = l.foldl (fun pool i => pool.set i h) s.pool := rfl
@[simp] theorem State.assignBuffers_portA (s : State) (l : List Nat) (h : Option Port) : (s.assignBuffers l h).portA = s.portA := rfl
@[simp] theorem State.assignBuffers_portB (s : State) (l : List Nat) (h : Option Port) : (s.assignBuffers l h).portB = s.portB := rfl
@[simp] theorem State.assignBuffers_custody (s : State) (l : List Nat) (h : Option Port) : (s.assignBuffers l h).custody = s.custody := rfl
@[simp] theorem State.assignBuffers_copy (s : State) (l : List Nat) (h : Option Port) : (s.assignBuffers l h).copy = s.copy := rfl
@[simp] theorem State.assignBuffers_reservation (s : State) (l : List Nat) (h : Option Port) : (s.assignBuffers l h).reservation = s.reservation := rfl
@[simp] theorem State.assignBuffers_supply (s : State) (l : List Nat) (h : Option Port) : (s.assignBuffers l h).supply = s.supply := rfl
@[simp] theorem State.assignBuffers_params (s : State) (l : List Nat) (h : Option Port) : (s.assignBuffers l h).params = s.params := rfl
@[simp] theorem State.assignBuffers_faultOutstanding (s : State) (l : List Nat) (h : Option Port) : (s.assignBuffers l h).faultOutstanding = s.faultOutstanding := rfl
@[simp] theorem State.assignBuffers_recalOutstanding (s : State) (l : List Nat) (h : Option Port) : (s.assignBuffers l h).recalOutstanding = s.recalOutstanding := rfl
@[simp] theorem State.assignBuffers_medium (s : State) (l : List Nat) (h : Option Port) : (s.assignBuffers l h).medium = s.medium := rfl
@[simp] theorem State.assignBuffers_carriage (s : State) (l : List Nat) (h : Option Port) : (s.assignBuffers l h).carriage = s.carriage := rfl
@[simp] theorem State.assignBuffers_freeCount (s : State) (l : List Nat) (h : Option Port) : (s.assignBuffers l h).freeCount = s.freeCount := rfl
@[simp] theorem State.assignBuffers_pending (s : State) (l : List Nat) (h : Option Port) : (s.assignBuffers l h).pending = s.pending := rfl

/-! ### setRamByte -/

@[simp] theorem State.setRamByte_time (s : State) (a : Nat) (v : Byte) : (s.setRamByte a v).time = s.time := rfl
@[simp] theorem State.setRamByte_pins (s : State) (a : Nat) (v : Byte) : (s.setRamByte a v).pins = s.pins := rfl
@[simp] theorem State.setRamByte_spindle (s : State) (a : Nat) (v : Byte) : (s.setRamByte a v).spindle = s.spindle := rfl
@[simp] theorem State.setRamByte_pos (s : State) (a : Nat) (v : Byte) : (s.setRamByte a v).pos = s.pos := rfl
@[simp] theorem State.setRamByte_seq (s : State) (a : Nat) (v : Byte) : (s.setRamByte a v).seq = s.seq := rfl
@[simp] theorem State.setRamByte_session (s : State) (a : Nat) (v : Byte) : (s.setRamByte a v).session = s.session := rfl
@[simp] theorem State.setRamByte_slots (s : State) (a : Nat) (v : Byte) : (s.setRamByte a v).slots = s.slots := rfl
@[simp] theorem State.setRamByte_turn (s : State) (a : Nat) (v : Byte) : (s.setRamByte a v).turn = s.turn := rfl
@[simp] theorem State.setRamByte_driveReq (s : State) (a : Nat) (v : Byte) : (s.setRamByte a v).driveReq = s.driveReq := rfl
@[simp] theorem State.setRamByte_ram (s : State) (a : Nat) (v : Byte) : (s.setRamByte a v).ram = sparseSet ramDefault s.ram a v := rfl
@[simp] theorem State.setRamByte_pool (s : State) (a : Nat) (v : Byte) : (s.setRamByte a v).pool = s.pool := rfl
@[simp] theorem State.setRamByte_portA (s : State) (a : Nat) (v : Byte) : (s.setRamByte a v).portA = s.portA := rfl
@[simp] theorem State.setRamByte_portB (s : State) (a : Nat) (v : Byte) : (s.setRamByte a v).portB = s.portB := rfl
@[simp] theorem State.setRamByte_custody (s : State) (a : Nat) (v : Byte) : (s.setRamByte a v).custody = s.custody := rfl
@[simp] theorem State.setRamByte_copy (s : State) (a : Nat) (v : Byte) : (s.setRamByte a v).copy = s.copy := rfl
@[simp] theorem State.setRamByte_reservation (s : State) (a : Nat) (v : Byte) : (s.setRamByte a v).reservation = s.reservation := rfl
@[simp] theorem State.setRamByte_supply (s : State) (a : Nat) (v : Byte) : (s.setRamByte a v).supply = s.supply := rfl
@[simp] theorem State.setRamByte_params (s : State) (a : Nat) (v : Byte) : (s.setRamByte a v).params = s.params := rfl
@[simp] theorem State.setRamByte_faultOutstanding (s : State) (a : Nat) (v : Byte) : (s.setRamByte a v).faultOutstanding = s.faultOutstanding := rfl
@[simp] theorem State.setRamByte_recalOutstanding (s : State) (a : Nat) (v : Byte) : (s.setRamByte a v).recalOutstanding = s.recalOutstanding := rfl
@[simp] theorem State.setRamByte_medium (s : State) (a : Nat) (v : Byte) : (s.setRamByte a v).medium = s.medium := rfl
@[simp] theorem State.setRamByte_carriage (s : State) (a : Nat) (v : Byte) : (s.setRamByte a v).carriage = s.carriage := rfl
@[simp] theorem State.setRamByte_freeCount (s : State) (a : Nat) (v : Byte) : (s.setRamByte a v).freeCount = s.freeCount := rfl
@[simp] theorem State.setRamByte_pending (s : State) (a : Nat) (v : Byte) : (s.setRamByte a v).pending = s.pending := rfl

/-! ### storeBuffer -/

@[simp] theorem State.storeBuffer_time (s : State) (b off : Nat) (l : List Byte) : (s.storeBuffer b off l).time = s.time := rfl
@[simp] theorem State.storeBuffer_pins (s : State) (b off : Nat) (l : List Byte) : (s.storeBuffer b off l).pins = s.pins := rfl
@[simp] theorem State.storeBuffer_spindle (s : State) (b off : Nat) (l : List Byte) : (s.storeBuffer b off l).spindle = s.spindle := rfl
@[simp] theorem State.storeBuffer_pos (s : State) (b off : Nat) (l : List Byte) : (s.storeBuffer b off l).pos = s.pos := rfl
@[simp] theorem State.storeBuffer_seq (s : State) (b off : Nat) (l : List Byte) : (s.storeBuffer b off l).seq = s.seq := rfl
@[simp] theorem State.storeBuffer_session (s : State) (b off : Nat) (l : List Byte) : (s.storeBuffer b off l).session = s.session := rfl
@[simp] theorem State.storeBuffer_slots (s : State) (b off : Nat) (l : List Byte) : (s.storeBuffer b off l).slots = s.slots := rfl
@[simp] theorem State.storeBuffer_turn (s : State) (b off : Nat) (l : List Byte) : (s.storeBuffer b off l).turn = s.turn := rfl
@[simp] theorem State.storeBuffer_driveReq (s : State) (b off : Nat) (l : List Byte) : (s.storeBuffer b off l).driveReq = s.driveReq := rfl
@[simp] theorem State.storeBuffer_ram (s : State) (b off : Nat) (l : List Byte) : (s.storeBuffer b off l).ram = storeBytes s.ram (512 * b + off) l := rfl
@[simp] theorem State.storeBuffer_pool (s : State) (b off : Nat) (l : List Byte) : (s.storeBuffer b off l).pool = s.pool := rfl
@[simp] theorem State.storeBuffer_portA (s : State) (b off : Nat) (l : List Byte) : (s.storeBuffer b off l).portA = s.portA := rfl
@[simp] theorem State.storeBuffer_portB (s : State) (b off : Nat) (l : List Byte) : (s.storeBuffer b off l).portB = s.portB := rfl
@[simp] theorem State.storeBuffer_custody (s : State) (b off : Nat) (l : List Byte) : (s.storeBuffer b off l).custody = s.custody := rfl
@[simp] theorem State.storeBuffer_copy (s : State) (b off : Nat) (l : List Byte) : (s.storeBuffer b off l).copy = s.copy := rfl
@[simp] theorem State.storeBuffer_reservation (s : State) (b off : Nat) (l : List Byte) : (s.storeBuffer b off l).reservation = s.reservation := rfl
@[simp] theorem State.storeBuffer_supply (s : State) (b off : Nat) (l : List Byte) : (s.storeBuffer b off l).supply = s.supply := rfl
@[simp] theorem State.storeBuffer_params (s : State) (b off : Nat) (l : List Byte) : (s.storeBuffer b off l).params = s.params := rfl
@[simp] theorem State.storeBuffer_faultOutstanding (s : State) (b off : Nat) (l : List Byte) : (s.storeBuffer b off l).faultOutstanding = s.faultOutstanding := rfl
@[simp] theorem State.storeBuffer_recalOutstanding (s : State) (b off : Nat) (l : List Byte) : (s.storeBuffer b off l).recalOutstanding = s.recalOutstanding := rfl
@[simp] theorem State.storeBuffer_medium (s : State) (b off : Nat) (l : List Byte) : (s.storeBuffer b off l).medium = s.medium := rfl
@[simp] theorem State.storeBuffer_carriage (s : State) (b off : Nat) (l : List Byte) : (s.storeBuffer b off l).carriage = s.carriage := rfl
@[simp] theorem State.storeBuffer_freeCount (s : State) (b off : Nat) (l : List Byte) : (s.storeBuffer b off l).freeCount = s.freeCount := rfl
@[simp] theorem State.storeBuffer_pending (s : State) (b off : Nat) (l : List Byte) : (s.storeBuffer b off l).pending = s.pending := rfl

/-! ### setImage -/

@[simp] theorem State.setImage_time (s : State) (h k : Nat) (i : SectorImage) : (s.setImage h k i).time = s.time := rfl
@[simp] theorem State.setImage_pins (s : State) (h k : Nat) (i : SectorImage) : (s.setImage h k i).pins = s.pins := rfl
@[simp] theorem State.setImage_spindle (s : State) (h k : Nat) (i : SectorImage) : (s.setImage h k i).spindle = s.spindle := rfl
@[simp] theorem State.setImage_pos (s : State) (h k : Nat) (i : SectorImage) : (s.setImage h k i).pos = s.pos := rfl
@[simp] theorem State.setImage_seq (s : State) (h k : Nat) (i : SectorImage) : (s.setImage h k i).seq = s.seq := rfl
@[simp] theorem State.setImage_session (s : State) (h k : Nat) (i : SectorImage) : (s.setImage h k i).session = s.session := rfl
@[simp] theorem State.setImage_slots (s : State) (h k : Nat) (i : SectorImage) : (s.setImage h k i).slots = s.slots := rfl
@[simp] theorem State.setImage_turn (s : State) (h k : Nat) (i : SectorImage) : (s.setImage h k i).turn = s.turn := rfl
@[simp] theorem State.setImage_driveReq (s : State) (h k : Nat) (i : SectorImage) : (s.setImage h k i).driveReq = s.driveReq := rfl
@[simp] theorem State.setImage_ram (s : State) (h k : Nat) (i : SectorImage) : (s.setImage h k i).ram = s.ram := rfl
@[simp] theorem State.setImage_pool (s : State) (h k : Nat) (i : SectorImage) : (s.setImage h k i).pool = s.pool := rfl
@[simp] theorem State.setImage_portA (s : State) (h k : Nat) (i : SectorImage) : (s.setImage h k i).portA = s.portA := rfl
@[simp] theorem State.setImage_portB (s : State) (h k : Nat) (i : SectorImage) : (s.setImage h k i).portB = s.portB := rfl
@[simp] theorem State.setImage_custody (s : State) (h k : Nat) (i : SectorImage) : (s.setImage h k i).custody = s.custody := rfl
@[simp] theorem State.setImage_copy (s : State) (h k : Nat) (i : SectorImage) : (s.setImage h k i).copy = s.copy := rfl
@[simp] theorem State.setImage_reservation (s : State) (h k : Nat) (i : SectorImage) : (s.setImage h k i).reservation = s.reservation := rfl
@[simp] theorem State.setImage_supply (s : State) (h k : Nat) (i : SectorImage) : (s.setImage h k i).supply = s.supply := rfl
@[simp] theorem State.setImage_params (s : State) (h k : Nat) (i : SectorImage) : (s.setImage h k i).params = s.params := rfl
@[simp] theorem State.setImage_faultOutstanding (s : State) (h k : Nat) (i : SectorImage) : (s.setImage h k i).faultOutstanding = s.faultOutstanding := rfl
@[simp] theorem State.setImage_recalOutstanding (s : State) (h k : Nat) (i : SectorImage) : (s.setImage h k i).recalOutstanding = s.recalOutstanding := rfl
@[simp] theorem State.setImage_medium (s : State) (h k : Nat) (i : SectorImage) : (s.setImage h k i).medium = sparseSet SectorImage.unrecorded s.medium (sectorKey s.carriage h k) i := rfl
@[simp] theorem State.setImage_carriage (s : State) (h k : Nat) (i : SectorImage) : (s.setImage h k i).carriage = s.carriage := rfl
@[simp] theorem State.setImage_freeCount (s : State) (h k : Nat) (i : SectorImage) : (s.setImage h k i).freeCount = s.freeCount := rfl
@[simp] theorem State.setImage_pending (s : State) (h k : Nat) (i : SectorImage) : (s.setImage h k i).pending = s.pending := rfl

/-! ### countFree -/

@[simp] theorem State.countFree_time (s : State) : (s.countFree).time = s.time := rfl
@[simp] theorem State.countFree_pins (s : State) : (s.countFree).pins = s.pins := rfl
@[simp] theorem State.countFree_spindle (s : State) : (s.countFree).spindle = s.spindle := rfl
@[simp] theorem State.countFree_pos (s : State) : (s.countFree).pos = s.pos := rfl
@[simp] theorem State.countFree_seq (s : State) : (s.countFree).seq = s.seq := rfl
@[simp] theorem State.countFree_session (s : State) : (s.countFree).session = s.session := rfl
@[simp] theorem State.countFree_slots (s : State) : (s.countFree).slots = s.slots := rfl
@[simp] theorem State.countFree_turn (s : State) : (s.countFree).turn = s.turn := rfl
@[simp] theorem State.countFree_driveReq (s : State) : (s.countFree).driveReq = s.driveReq := rfl
@[simp] theorem State.countFree_ram (s : State) : (s.countFree).ram = s.ram := rfl
@[simp] theorem State.countFree_pool (s : State) : (s.countFree).pool = s.pool := rfl
@[simp] theorem State.countFree_portA (s : State) : (s.countFree).portA = s.portA := rfl
@[simp] theorem State.countFree_portB (s : State) : (s.countFree).portB = s.portB := rfl
@[simp] theorem State.countFree_custody (s : State) : (s.countFree).custody = s.custody := rfl
@[simp] theorem State.countFree_copy (s : State) : (s.countFree).copy = s.copy := rfl
@[simp] theorem State.countFree_reservation (s : State) : (s.countFree).reservation = s.reservation := rfl
@[simp] theorem State.countFree_supply (s : State) : (s.countFree).supply = s.supply := rfl
@[simp] theorem State.countFree_params (s : State) : (s.countFree).params = s.params := rfl
@[simp] theorem State.countFree_faultOutstanding (s : State) : (s.countFree).faultOutstanding = s.faultOutstanding := rfl
@[simp] theorem State.countFree_recalOutstanding (s : State) : (s.countFree).recalOutstanding = s.recalOutstanding := rfl
@[simp] theorem State.countFree_medium (s : State) : (s.countFree).medium = s.medium := rfl
@[simp] theorem State.countFree_carriage (s : State) : (s.countFree).carriage = s.carriage := rfl
@[simp] theorem State.countFree_freeCount (s : State) : (s.countFree).freeCount = s.freeCount + 1 := rfl
@[simp] theorem State.countFree_pending (s : State) : (s.countFree).pending = s.pending := rfl

/-! ### updBoth -/

@[simp] theorem State.updBoth_time (s : State) (f : PortContext → PortContext) : (s.updBoth f).time = s.time := rfl
@[simp] theorem State.updBoth_pins (s : State) (f : PortContext → PortContext) : (s.updBoth f).pins = s.pins := rfl
@[simp] theorem State.updBoth_spindle (s : State) (f : PortContext → PortContext) : (s.updBoth f).spindle = s.spindle := rfl
@[simp] theorem State.updBoth_pos (s : State) (f : PortContext → PortContext) : (s.updBoth f).pos = s.pos := rfl
@[simp] theorem State.updBoth_seq (s : State) (f : PortContext → PortContext) : (s.updBoth f).seq = s.seq := rfl
@[simp] theorem State.updBoth_session (s : State) (f : PortContext → PortContext) : (s.updBoth f).session = s.session := rfl
@[simp] theorem State.updBoth_slots (s : State) (f : PortContext → PortContext) : (s.updBoth f).slots = s.slots := rfl
@[simp] theorem State.updBoth_turn (s : State) (f : PortContext → PortContext) : (s.updBoth f).turn = s.turn := rfl
@[simp] theorem State.updBoth_driveReq (s : State) (f : PortContext → PortContext) : (s.updBoth f).driveReq = s.driveReq := rfl
@[simp] theorem State.updBoth_ram (s : State) (f : PortContext → PortContext) : (s.updBoth f).ram = s.ram := rfl
@[simp] theorem State.updBoth_pool (s : State) (f : PortContext → PortContext) : (s.updBoth f).pool = s.pool := rfl
@[simp] theorem State.updBoth_portA (s : State) (f : PortContext → PortContext) : (s.updBoth f).portA = f s.portA := rfl
@[simp] theorem State.updBoth_portB (s : State) (f : PortContext → PortContext) : (s.updBoth f).portB = f s.portB := rfl
@[simp] theorem State.updBoth_custody (s : State) (f : PortContext → PortContext) : (s.updBoth f).custody = s.custody := rfl
@[simp] theorem State.updBoth_copy (s : State) (f : PortContext → PortContext) : (s.updBoth f).copy = s.copy := rfl
@[simp] theorem State.updBoth_reservation (s : State) (f : PortContext → PortContext) : (s.updBoth f).reservation = s.reservation := rfl
@[simp] theorem State.updBoth_supply (s : State) (f : PortContext → PortContext) : (s.updBoth f).supply = s.supply := rfl
@[simp] theorem State.updBoth_params (s : State) (f : PortContext → PortContext) : (s.updBoth f).params = s.params := rfl
@[simp] theorem State.updBoth_faultOutstanding (s : State) (f : PortContext → PortContext) : (s.updBoth f).faultOutstanding = s.faultOutstanding := rfl
@[simp] theorem State.updBoth_recalOutstanding (s : State) (f : PortContext → PortContext) : (s.updBoth f).recalOutstanding = s.recalOutstanding := rfl
@[simp] theorem State.updBoth_medium (s : State) (f : PortContext → PortContext) : (s.updBoth f).medium = s.medium := rfl
@[simp] theorem State.updBoth_carriage (s : State) (f : PortContext → PortContext) : (s.updBoth f).carriage = s.carriage := rfl
@[simp] theorem State.updBoth_freeCount (s : State) (f : PortContext → PortContext) : (s.updBoth f).freeCount = s.freeCount := rfl
@[simp] theorem State.updBoth_pending (s : State) (f : PortContext → PortContext) : (s.updBoth f).pending = s.pending := rfl

/-! ### raiseFlag -/

@[simp] theorem State.raiseFlag_time (s : State) (f : Flag) : (s.raiseFlag f).time = s.time := rfl
@[simp] theorem State.raiseFlag_pins (s : State) (f : Flag) : (s.raiseFlag f).pins = s.pins := rfl
@[simp] theorem State.raiseFlag_spindle (s : State) (f : Flag) : (s.raiseFlag f).spindle = s.spindle := rfl
@[simp] theorem State.raiseFlag_pos (s : State) (f : Flag) : (s.raiseFlag f).pos = s.pos := rfl
@[simp] theorem State.raiseFlag_seq (s : State) (f : Flag) : (s.raiseFlag f).seq = s.seq := rfl
@[simp] theorem State.raiseFlag_session (s : State) (f : Flag) : (s.raiseFlag f).session = s.session := rfl
@[simp] theorem State.raiseFlag_slots (s : State) (f : Flag) : (s.raiseFlag f).slots = s.slots := rfl
@[simp] theorem State.raiseFlag_turn (s : State) (f : Flag) : (s.raiseFlag f).turn = s.turn := rfl
@[simp] theorem State.raiseFlag_driveReq (s : State) (f : Flag) : (s.raiseFlag f).driveReq = s.driveReq := rfl
@[simp] theorem State.raiseFlag_ram (s : State) (f : Flag) : (s.raiseFlag f).ram = s.ram := rfl
@[simp] theorem State.raiseFlag_pool (s : State) (f : Flag) : (s.raiseFlag f).pool = s.pool := rfl
@[simp] theorem State.raiseFlag_portA (s : State) (f : Flag) : (s.raiseFlag f).portA = s.portA.raise f := rfl
@[simp] theorem State.raiseFlag_portB (s : State) (f : Flag) : (s.raiseFlag f).portB = s.portB.raise f := rfl
@[simp] theorem State.raiseFlag_custody (s : State) (f : Flag) : (s.raiseFlag f).custody = s.custody := rfl
@[simp] theorem State.raiseFlag_copy (s : State) (f : Flag) : (s.raiseFlag f).copy = s.copy := rfl
@[simp] theorem State.raiseFlag_reservation (s : State) (f : Flag) : (s.raiseFlag f).reservation = s.reservation := rfl
@[simp] theorem State.raiseFlag_supply (s : State) (f : Flag) : (s.raiseFlag f).supply = s.supply := rfl
@[simp] theorem State.raiseFlag_params (s : State) (f : Flag) : (s.raiseFlag f).params = s.params := rfl
@[simp] theorem State.raiseFlag_faultOutstanding (s : State) (f : Flag) : (s.raiseFlag f).faultOutstanding = s.faultOutstanding := rfl
@[simp] theorem State.raiseFlag_recalOutstanding (s : State) (f : Flag) : (s.raiseFlag f).recalOutstanding = s.recalOutstanding := rfl
@[simp] theorem State.raiseFlag_medium (s : State) (f : Flag) : (s.raiseFlag f).medium = s.medium := rfl
@[simp] theorem State.raiseFlag_carriage (s : State) (f : Flag) : (s.raiseFlag f).carriage = s.carriage := rfl
@[simp] theorem State.raiseFlag_freeCount (s : State) (f : Flag) : (s.raiseFlag f).freeCount = s.freeCount := rfl
@[simp] theorem State.raiseFlag_pending (s : State) (f : Flag) : (s.raiseFlag f).pending = s.pending := rfl

/-! ### postBoth -/

@[simp] theorem State.postBoth_time (s : State) (b : NoticeBody) : (s.postBoth b).time = s.time := rfl
@[simp] theorem State.postBoth_pins (s : State) (b : NoticeBody) : (s.postBoth b).pins = s.pins := rfl
@[simp] theorem State.postBoth_spindle (s : State) (b : NoticeBody) : (s.postBoth b).spindle = s.spindle := rfl
@[simp] theorem State.postBoth_pos (s : State) (b : NoticeBody) : (s.postBoth b).pos = s.pos := rfl
@[simp] theorem State.postBoth_seq (s : State) (b : NoticeBody) : (s.postBoth b).seq = s.seq := rfl
@[simp] theorem State.postBoth_session (s : State) (b : NoticeBody) : (s.postBoth b).session = s.session := rfl
@[simp] theorem State.postBoth_slots (s : State) (b : NoticeBody) : (s.postBoth b).slots = s.slots := rfl
@[simp] theorem State.postBoth_turn (s : State) (b : NoticeBody) : (s.postBoth b).turn = s.turn := rfl
@[simp] theorem State.postBoth_driveReq (s : State) (b : NoticeBody) : (s.postBoth b).driveReq = s.driveReq := rfl
@[simp] theorem State.postBoth_ram (s : State) (b : NoticeBody) : (s.postBoth b).ram = s.ram := rfl
@[simp] theorem State.postBoth_pool (s : State) (b : NoticeBody) : (s.postBoth b).pool = s.pool := rfl
@[simp] theorem State.postBoth_portA (s : State) (b : NoticeBody) : (s.postBoth b).portA = s.portA.post (s.eventNotice b s.custody.generation) := rfl
@[simp] theorem State.postBoth_portB (s : State) (b : NoticeBody) : (s.postBoth b).portB = s.portB.post (s.eventNotice b s.custody.generation) := rfl
@[simp] theorem State.postBoth_custody (s : State) (b : NoticeBody) : (s.postBoth b).custody = s.custody := rfl
@[simp] theorem State.postBoth_copy (s : State) (b : NoticeBody) : (s.postBoth b).copy = s.copy := rfl
@[simp] theorem State.postBoth_reservation (s : State) (b : NoticeBody) : (s.postBoth b).reservation = s.reservation := rfl
@[simp] theorem State.postBoth_supply (s : State) (b : NoticeBody) : (s.postBoth b).supply = s.supply := rfl
@[simp] theorem State.postBoth_params (s : State) (b : NoticeBody) : (s.postBoth b).params = s.params := rfl
@[simp] theorem State.postBoth_faultOutstanding (s : State) (b : NoticeBody) : (s.postBoth b).faultOutstanding = s.faultOutstanding := rfl
@[simp] theorem State.postBoth_recalOutstanding (s : State) (b : NoticeBody) : (s.postBoth b).recalOutstanding = s.recalOutstanding := rfl
@[simp] theorem State.postBoth_medium (s : State) (b : NoticeBody) : (s.postBoth b).medium = s.medium := rfl
@[simp] theorem State.postBoth_carriage (s : State) (b : NoticeBody) : (s.postBoth b).carriage = s.carriage := rfl
@[simp] theorem State.postBoth_freeCount (s : State) (b : NoticeBody) : (s.postBoth b).freeCount = s.freeCount := rfl
@[simp] theorem State.postBoth_pending (s : State) (b : NoticeBody) : (s.postBoth b).pending = s.pending := rfl

/-! ### setCtx -/

@[simp] theorem State.setCtx_time (s : State) (p : Port) (c : PortContext) : (s.setCtx p c).time = s.time := by cases p <;> rfl
@[simp] theorem State.setCtx_pins (s : State) (p : Port) (c : PortContext) : (s.setCtx p c).pins = s.pins := by cases p <;> rfl
@[simp] theorem State.setCtx_spindle (s : State) (p : Port) (c : PortContext) : (s.setCtx p c).spindle = s.spindle := by cases p <;> rfl
@[simp] theorem State.setCtx_pos (s : State) (p : Port) (c : PortContext) : (s.setCtx p c).pos = s.pos := by cases p <;> rfl
@[simp] theorem State.setCtx_seq (s : State) (p : Port) (c : PortContext) : (s.setCtx p c).seq = s.seq := by cases p <;> rfl
@[simp] theorem State.setCtx_session (s : State) (p : Port) (c : PortContext) : (s.setCtx p c).session = s.session := by cases p <;> rfl
@[simp] theorem State.setCtx_slots (s : State) (p : Port) (c : PortContext) : (s.setCtx p c).slots = s.slots := by cases p <;> rfl
@[simp] theorem State.setCtx_turn (s : State) (p : Port) (c : PortContext) : (s.setCtx p c).turn = s.turn := by cases p <;> rfl
@[simp] theorem State.setCtx_driveReq (s : State) (p : Port) (c : PortContext) : (s.setCtx p c).driveReq = s.driveReq := by cases p <;> rfl
@[simp] theorem State.setCtx_ram (s : State) (p : Port) (c : PortContext) : (s.setCtx p c).ram = s.ram := by cases p <;> rfl
@[simp] theorem State.setCtx_pool (s : State) (p : Port) (c : PortContext) : (s.setCtx p c).pool = s.pool := by cases p <;> rfl
@[simp] theorem State.setCtx_custody (s : State) (p : Port) (c : PortContext) : (s.setCtx p c).custody = s.custody := by cases p <;> rfl
@[simp] theorem State.setCtx_copy (s : State) (p : Port) (c : PortContext) : (s.setCtx p c).copy = s.copy := by cases p <;> rfl
@[simp] theorem State.setCtx_reservation (s : State) (p : Port) (c : PortContext) : (s.setCtx p c).reservation = s.reservation := by cases p <;> rfl
@[simp] theorem State.setCtx_supply (s : State) (p : Port) (c : PortContext) : (s.setCtx p c).supply = s.supply := by cases p <;> rfl
@[simp] theorem State.setCtx_params (s : State) (p : Port) (c : PortContext) : (s.setCtx p c).params = s.params := by cases p <;> rfl
@[simp] theorem State.setCtx_faultOutstanding (s : State) (p : Port) (c : PortContext) : (s.setCtx p c).faultOutstanding = s.faultOutstanding := by cases p <;> rfl
@[simp] theorem State.setCtx_recalOutstanding (s : State) (p : Port) (c : PortContext) : (s.setCtx p c).recalOutstanding = s.recalOutstanding := by cases p <;> rfl
@[simp] theorem State.setCtx_medium (s : State) (p : Port) (c : PortContext) : (s.setCtx p c).medium = s.medium := by cases p <;> rfl
@[simp] theorem State.setCtx_carriage (s : State) (p : Port) (c : PortContext) : (s.setCtx p c).carriage = s.carriage := by cases p <;> rfl
@[simp] theorem State.setCtx_freeCount (s : State) (p : Port) (c : PortContext) : (s.setCtx p c).freeCount = s.freeCount := by cases p <;> rfl
@[simp] theorem State.setCtx_pending (s : State) (p : Port) (c : PortContext) : (s.setCtx p c).pending = s.pending := by cases p <;> rfl

/-! ### updCtx -/

@[simp] theorem State.updCtx_time (s : State) (p : Port) (f : PortContext → PortContext) : (s.updCtx p f).time = s.time := by cases p <;> rfl
@[simp] theorem State.updCtx_pins (s : State) (p : Port) (f : PortContext → PortContext) : (s.updCtx p f).pins = s.pins := by cases p <;> rfl
@[simp] theorem State.updCtx_spindle (s : State) (p : Port) (f : PortContext → PortContext) : (s.updCtx p f).spindle = s.spindle := by cases p <;> rfl
@[simp] theorem State.updCtx_pos (s : State) (p : Port) (f : PortContext → PortContext) : (s.updCtx p f).pos = s.pos := by cases p <;> rfl
@[simp] theorem State.updCtx_seq (s : State) (p : Port) (f : PortContext → PortContext) : (s.updCtx p f).seq = s.seq := by cases p <;> rfl
@[simp] theorem State.updCtx_session (s : State) (p : Port) (f : PortContext → PortContext) : (s.updCtx p f).session = s.session := by cases p <;> rfl
@[simp] theorem State.updCtx_slots (s : State) (p : Port) (f : PortContext → PortContext) : (s.updCtx p f).slots = s.slots := by cases p <;> rfl
@[simp] theorem State.updCtx_turn (s : State) (p : Port) (f : PortContext → PortContext) : (s.updCtx p f).turn = s.turn := by cases p <;> rfl
@[simp] theorem State.updCtx_driveReq (s : State) (p : Port) (f : PortContext → PortContext) : (s.updCtx p f).driveReq = s.driveReq := by cases p <;> rfl
@[simp] theorem State.updCtx_ram (s : State) (p : Port) (f : PortContext → PortContext) : (s.updCtx p f).ram = s.ram := by cases p <;> rfl
@[simp] theorem State.updCtx_pool (s : State) (p : Port) (f : PortContext → PortContext) : (s.updCtx p f).pool = s.pool := by cases p <;> rfl
@[simp] theorem State.updCtx_custody (s : State) (p : Port) (f : PortContext → PortContext) : (s.updCtx p f).custody = s.custody := by cases p <;> rfl
@[simp] theorem State.updCtx_copy (s : State) (p : Port) (f : PortContext → PortContext) : (s.updCtx p f).copy = s.copy := by cases p <;> rfl
@[simp] theorem State.updCtx_reservation (s : State) (p : Port) (f : PortContext → PortContext) : (s.updCtx p f).reservation = s.reservation := by cases p <;> rfl
@[simp] theorem State.updCtx_supply (s : State) (p : Port) (f : PortContext → PortContext) : (s.updCtx p f).supply = s.supply := by cases p <;> rfl
@[simp] theorem State.updCtx_params (s : State) (p : Port) (f : PortContext → PortContext) : (s.updCtx p f).params = s.params := by cases p <;> rfl
@[simp] theorem State.updCtx_faultOutstanding (s : State) (p : Port) (f : PortContext → PortContext) : (s.updCtx p f).faultOutstanding = s.faultOutstanding := by cases p <;> rfl
@[simp] theorem State.updCtx_recalOutstanding (s : State) (p : Port) (f : PortContext → PortContext) : (s.updCtx p f).recalOutstanding = s.recalOutstanding := by cases p <;> rfl
@[simp] theorem State.updCtx_medium (s : State) (p : Port) (f : PortContext → PortContext) : (s.updCtx p f).medium = s.medium := by cases p <;> rfl
@[simp] theorem State.updCtx_carriage (s : State) (p : Port) (f : PortContext → PortContext) : (s.updCtx p f).carriage = s.carriage := by cases p <;> rfl
@[simp] theorem State.updCtx_freeCount (s : State) (p : Port) (f : PortContext → PortContext) : (s.updCtx p f).freeCount = s.freeCount := by cases p <;> rfl
@[simp] theorem State.updCtx_pending (s : State) (p : Port) (f : PortContext → PortContext) : (s.updCtx p f).pending = s.pending := by cases p <;> rfl

/-! ### updLink -/

@[simp] theorem State.updLink_time (s : State) (p : Port) (f : Link → Link) : (s.updLink p f).time = s.time := by cases p <;> rfl
@[simp] theorem State.updLink_pins (s : State) (p : Port) (f : Link → Link) : (s.updLink p f).pins = s.pins := by cases p <;> rfl
@[simp] theorem State.updLink_spindle (s : State) (p : Port) (f : Link → Link) : (s.updLink p f).spindle = s.spindle := by cases p <;> rfl
@[simp] theorem State.updLink_pos (s : State) (p : Port) (f : Link → Link) : (s.updLink p f).pos = s.pos := by cases p <;> rfl
@[simp] theorem State.updLink_seq (s : State) (p : Port) (f : Link → Link) : (s.updLink p f).seq = s.seq := by cases p <;> rfl
@[simp] theorem State.updLink_session (s : State) (p : Port) (f : Link → Link) : (s.updLink p f).session = s.session := by cases p <;> rfl
@[simp] theorem State.updLink_slots (s : State) (p : Port) (f : Link → Link) : (s.updLink p f).slots = s.slots := by cases p <;> rfl
@[simp] theorem State.updLink_turn (s : State) (p : Port) (f : Link → Link) : (s.updLink p f).turn = s.turn := by cases p <;> rfl
@[simp] theorem State.updLink_driveReq (s : State) (p : Port) (f : Link → Link) : (s.updLink p f).driveReq = s.driveReq := by cases p <;> rfl
@[simp] theorem State.updLink_ram (s : State) (p : Port) (f : Link → Link) : (s.updLink p f).ram = s.ram := by cases p <;> rfl
@[simp] theorem State.updLink_pool (s : State) (p : Port) (f : Link → Link) : (s.updLink p f).pool = s.pool := by cases p <;> rfl
@[simp] theorem State.updLink_custody (s : State) (p : Port) (f : Link → Link) : (s.updLink p f).custody = s.custody := by cases p <;> rfl
@[simp] theorem State.updLink_copy (s : State) (p : Port) (f : Link → Link) : (s.updLink p f).copy = s.copy := by cases p <;> rfl
@[simp] theorem State.updLink_reservation (s : State) (p : Port) (f : Link → Link) : (s.updLink p f).reservation = s.reservation := by cases p <;> rfl
@[simp] theorem State.updLink_supply (s : State) (p : Port) (f : Link → Link) : (s.updLink p f).supply = s.supply := by cases p <;> rfl
@[simp] theorem State.updLink_params (s : State) (p : Port) (f : Link → Link) : (s.updLink p f).params = s.params := by cases p <;> rfl
@[simp] theorem State.updLink_faultOutstanding (s : State) (p : Port) (f : Link → Link) : (s.updLink p f).faultOutstanding = s.faultOutstanding := by cases p <;> rfl
@[simp] theorem State.updLink_recalOutstanding (s : State) (p : Port) (f : Link → Link) : (s.updLink p f).recalOutstanding = s.recalOutstanding := by cases p <;> rfl
@[simp] theorem State.updLink_medium (s : State) (p : Port) (f : Link → Link) : (s.updLink p f).medium = s.medium := by cases p <;> rfl
@[simp] theorem State.updLink_carriage (s : State) (p : Port) (f : Link → Link) : (s.updLink p f).carriage = s.carriage := by cases p <;> rfl
@[simp] theorem State.updLink_freeCount (s : State) (p : Port) (f : Link → Link) : (s.updLink p f).freeCount = s.freeCount := by cases p <;> rfl
@[simp] theorem State.updLink_pending (s : State) (p : Port) (f : Link → Link) : (s.updLink p f).pending = s.pending := by cases p <;> rfl

/-! ### updEntry -/

@[simp] theorem State.updEntry_time (s : State) (p : Port) (tag : Byte) (f : Entry → Entry) : (s.updEntry p tag f).time = s.time := by cases p <;> rfl
@[simp] theorem State.updEntry_pins (s : State) (p : Port) (tag : Byte) (f : Entry → Entry) : (s.updEntry p tag f).pins = s.pins := by cases p <;> rfl
@[simp] theorem State.updEntry_spindle (s : State) (p : Port) (tag : Byte) (f : Entry → Entry) : (s.updEntry p tag f).spindle = s.spindle := by cases p <;> rfl
@[simp] theorem State.updEntry_pos (s : State) (p : Port) (tag : Byte) (f : Entry → Entry) : (s.updEntry p tag f).pos = s.pos := by cases p <;> rfl
@[simp] theorem State.updEntry_seq (s : State) (p : Port) (tag : Byte) (f : Entry → Entry) : (s.updEntry p tag f).seq = s.seq := by cases p <;> rfl
@[simp] theorem State.updEntry_session (s : State) (p : Port) (tag : Byte) (f : Entry → Entry) : (s.updEntry p tag f).session = s.session := by cases p <;> rfl
@[simp] theorem State.updEntry_slots (s : State) (p : Port) (tag : Byte) (f : Entry → Entry) : (s.updEntry p tag f).slots = s.slots := by cases p <;> rfl
@[simp] theorem State.updEntry_turn (s : State) (p : Port) (tag : Byte) (f : Entry → Entry) : (s.updEntry p tag f).turn = s.turn := by cases p <;> rfl
@[simp] theorem State.updEntry_driveReq (s : State) (p : Port) (tag : Byte) (f : Entry → Entry) : (s.updEntry p tag f).driveReq = s.driveReq := by cases p <;> rfl
@[simp] theorem State.updEntry_ram (s : State) (p : Port) (tag : Byte) (f : Entry → Entry) : (s.updEntry p tag f).ram = s.ram := by cases p <;> rfl
@[simp] theorem State.updEntry_pool (s : State) (p : Port) (tag : Byte) (f : Entry → Entry) : (s.updEntry p tag f).pool = s.pool := by cases p <;> rfl
@[simp] theorem State.updEntry_custody (s : State) (p : Port) (tag : Byte) (f : Entry → Entry) : (s.updEntry p tag f).custody = s.custody := by cases p <;> rfl
@[simp] theorem State.updEntry_copy (s : State) (p : Port) (tag : Byte) (f : Entry → Entry) : (s.updEntry p tag f).copy = s.copy := by cases p <;> rfl
@[simp] theorem State.updEntry_reservation (s : State) (p : Port) (tag : Byte) (f : Entry → Entry) : (s.updEntry p tag f).reservation = s.reservation := by cases p <;> rfl
@[simp] theorem State.updEntry_supply (s : State) (p : Port) (tag : Byte) (f : Entry → Entry) : (s.updEntry p tag f).supply = s.supply := by cases p <;> rfl
@[simp] theorem State.updEntry_params (s : State) (p : Port) (tag : Byte) (f : Entry → Entry) : (s.updEntry p tag f).params = s.params := by cases p <;> rfl
@[simp] theorem State.updEntry_faultOutstanding (s : State) (p : Port) (tag : Byte) (f : Entry → Entry) : (s.updEntry p tag f).faultOutstanding = s.faultOutstanding := by cases p <;> rfl
@[simp] theorem State.updEntry_recalOutstanding (s : State) (p : Port) (tag : Byte) (f : Entry → Entry) : (s.updEntry p tag f).recalOutstanding = s.recalOutstanding := by cases p <;> rfl
@[simp] theorem State.updEntry_medium (s : State) (p : Port) (tag : Byte) (f : Entry → Entry) : (s.updEntry p tag f).medium = s.medium := by cases p <;> rfl
@[simp] theorem State.updEntry_carriage (s : State) (p : Port) (tag : Byte) (f : Entry → Entry) : (s.updEntry p tag f).carriage = s.carriage := by cases p <;> rfl
@[simp] theorem State.updEntry_freeCount (s : State) (p : Port) (tag : Byte) (f : Entry → Entry) : (s.updEntry p tag f).freeCount = s.freeCount := by cases p <;> rfl
@[simp] theorem State.updEntry_pending (s : State) (p : Port) (tag : Byte) (f : Entry → Entry) : (s.updEntry p tag f).pending = s.pending := by cases p <;> rfl

/-! ### dropEntry -/

@[simp] theorem State.dropEntry_time (s : State) (p : Port) (tag : Byte) : (s.dropEntry p tag).time = s.time := by cases p <;> rfl
@[simp] theorem State.dropEntry_pins (s : State) (p : Port) (tag : Byte) : (s.dropEntry p tag).pins = s.pins := by cases p <;> rfl
@[simp] theorem State.dropEntry_spindle (s : State) (p : Port) (tag : Byte) : (s.dropEntry p tag).spindle = s.spindle := by cases p <;> rfl
@[simp] theorem State.dropEntry_pos (s : State) (p : Port) (tag : Byte) : (s.dropEntry p tag).pos = s.pos := by cases p <;> rfl
@[simp] theorem State.dropEntry_seq (s : State) (p : Port) (tag : Byte) : (s.dropEntry p tag).seq = s.seq := by cases p <;> rfl
@[simp] theorem State.dropEntry_session (s : State) (p : Port) (tag : Byte) : (s.dropEntry p tag).session = s.session := by cases p <;> rfl
@[simp] theorem State.dropEntry_slots (s : State) (p : Port) (tag : Byte) : (s.dropEntry p tag).slots = s.slots := by cases p <;> rfl
@[simp] theorem State.dropEntry_turn (s : State) (p : Port) (tag : Byte) : (s.dropEntry p tag).turn = s.turn := by cases p <;> rfl
@[simp] theorem State.dropEntry_driveReq (s : State) (p : Port) (tag : Byte) : (s.dropEntry p tag).driveReq = s.driveReq := by cases p <;> rfl
@[simp] theorem State.dropEntry_ram (s : State) (p : Port) (tag : Byte) : (s.dropEntry p tag).ram = s.ram := by cases p <;> rfl
@[simp] theorem State.dropEntry_pool (s : State) (p : Port) (tag : Byte) : (s.dropEntry p tag).pool = s.pool := by cases p <;> rfl
@[simp] theorem State.dropEntry_custody (s : State) (p : Port) (tag : Byte) : (s.dropEntry p tag).custody = s.custody := by cases p <;> rfl
@[simp] theorem State.dropEntry_copy (s : State) (p : Port) (tag : Byte) : (s.dropEntry p tag).copy = s.copy := by cases p <;> rfl
@[simp] theorem State.dropEntry_reservation (s : State) (p : Port) (tag : Byte) : (s.dropEntry p tag).reservation = s.reservation := by cases p <;> rfl
@[simp] theorem State.dropEntry_supply (s : State) (p : Port) (tag : Byte) : (s.dropEntry p tag).supply = s.supply := by cases p <;> rfl
@[simp] theorem State.dropEntry_params (s : State) (p : Port) (tag : Byte) : (s.dropEntry p tag).params = s.params := by cases p <;> rfl
@[simp] theorem State.dropEntry_faultOutstanding (s : State) (p : Port) (tag : Byte) : (s.dropEntry p tag).faultOutstanding = s.faultOutstanding := by cases p <;> rfl
@[simp] theorem State.dropEntry_recalOutstanding (s : State) (p : Port) (tag : Byte) : (s.dropEntry p tag).recalOutstanding = s.recalOutstanding := by cases p <;> rfl
@[simp] theorem State.dropEntry_medium (s : State) (p : Port) (tag : Byte) : (s.dropEntry p tag).medium = s.medium := by cases p <;> rfl
@[simp] theorem State.dropEntry_carriage (s : State) (p : Port) (tag : Byte) : (s.dropEntry p tag).carriage = s.carriage := by cases p <;> rfl
@[simp] theorem State.dropEntry_freeCount (s : State) (p : Port) (tag : Byte) : (s.dropEntry p tag).freeCount = s.freeCount := by cases p <;> rfl
@[simp] theorem State.dropEntry_pending (s : State) (p : Port) (tag : Byte) : (s.dropEntry p tag).pending = s.pending := by cases p <;> rfl

/-! ### post -/

@[simp] theorem State.post_time (s : State) (p : Port) (b : NoticeBody) : (s.post p b).time = s.time := by cases p <;> rfl
@[simp] theorem State.post_pins (s : State) (p : Port) (b : NoticeBody) : (s.post p b).pins = s.pins := by cases p <;> rfl
@[simp] theorem State.post_spindle (s : State) (p : Port) (b : NoticeBody) : (s.post p b).spindle = s.spindle := by cases p <;> rfl
@[simp] theorem State.post_pos (s : State) (p : Port) (b : NoticeBody) : (s.post p b).pos = s.pos := by cases p <;> rfl
@[simp] theorem State.post_seq (s : State) (p : Port) (b : NoticeBody) : (s.post p b).seq = s.seq := by cases p <;> rfl
@[simp] theorem State.post_session (s : State) (p : Port) (b : NoticeBody) : (s.post p b).session = s.session := by cases p <;> rfl
@[simp] theorem State.post_slots (s : State) (p : Port) (b : NoticeBody) : (s.post p b).slots = s.slots := by cases p <;> rfl
@[simp] theorem State.post_turn (s : State) (p : Port) (b : NoticeBody) : (s.post p b).turn = s.turn := by cases p <;> rfl
@[simp] theorem State.post_driveReq (s : State) (p : Port) (b : NoticeBody) : (s.post p b).driveReq = s.driveReq := by cases p <;> rfl
@[simp] theorem State.post_ram (s : State) (p : Port) (b : NoticeBody) : (s.post p b).ram = s.ram := by cases p <;> rfl
@[simp] theorem State.post_pool (s : State) (p : Port) (b : NoticeBody) : (s.post p b).pool = s.pool := by cases p <;> rfl
@[simp] theorem State.post_custody (s : State) (p : Port) (b : NoticeBody) : (s.post p b).custody = s.custody := by cases p <;> rfl
@[simp] theorem State.post_copy (s : State) (p : Port) (b : NoticeBody) : (s.post p b).copy = s.copy := by cases p <;> rfl
@[simp] theorem State.post_reservation (s : State) (p : Port) (b : NoticeBody) : (s.post p b).reservation = s.reservation := by cases p <;> rfl
@[simp] theorem State.post_supply (s : State) (p : Port) (b : NoticeBody) : (s.post p b).supply = s.supply := by cases p <;> rfl
@[simp] theorem State.post_params (s : State) (p : Port) (b : NoticeBody) : (s.post p b).params = s.params := by cases p <;> rfl
@[simp] theorem State.post_faultOutstanding (s : State) (p : Port) (b : NoticeBody) : (s.post p b).faultOutstanding = s.faultOutstanding := by cases p <;> rfl
@[simp] theorem State.post_recalOutstanding (s : State) (p : Port) (b : NoticeBody) : (s.post p b).recalOutstanding = s.recalOutstanding := by cases p <;> rfl
@[simp] theorem State.post_medium (s : State) (p : Port) (b : NoticeBody) : (s.post p b).medium = s.medium := by cases p <;> rfl
@[simp] theorem State.post_carriage (s : State) (p : Port) (b : NoticeBody) : (s.post p b).carriage = s.carriage := by cases p <;> rfl
@[simp] theorem State.post_freeCount (s : State) (p : Port) (b : NoticeBody) : (s.post p b).freeCount = s.freeCount := by cases p <;> rfl
@[simp] theorem State.post_pending (s : State) (p : Port) (b : NoticeBody) : (s.post p b).pending = s.pending := by cases p <;> rfl

/-! ### Port contexts -/

@[simp] theorem State.ctx_a (s : State) : s.ctx .a = s.portA := rfl
@[simp] theorem State.ctx_b (s : State) : s.ctx .b = s.portB := rfl
@[simp] theorem Port.other_other (p : Port) : p.other.other = p := by cases p <;> rfl
@[simp] theorem Port.other_ne (p : Port) : p.other ≠ p := by cases p <;> decide
@[simp] theorem Port.ne_other (p : Port) : p ≠ p.other := by cases p <;> decide
@[simp] theorem State.setCtx_ctx (s : State) (p : Port) (c : PortContext) : (s.setCtx p c).ctx p = c := by
  cases p <;> rfl
@[simp] theorem State.setCtx_ctx_other (s : State) (p : Port) (c : PortContext) :
    (s.setCtx p c).ctx p.other = s.ctx p.other := by cases p <;> rfl
@[simp] theorem State.updCtx_ctx (s : State) (p : Port) (f : PortContext → PortContext) :
    (s.updCtx p f).ctx p = f (s.ctx p) := by cases p <;> rfl
@[simp] theorem State.updCtx_ctx_other (s : State) (p : Port) (f : PortContext → PortContext) :
    (s.updCtx p f).ctx p.other = s.ctx p.other := by cases p <;> rfl
@[simp] theorem State.updLink_ctx (s : State) (p : Port) (f : Link → Link) :
    (s.updLink p f).ctx p = { s.ctx p with link := f (s.ctx p).link } := by cases p <;> rfl
@[simp] theorem State.updLink_ctx_other (s : State) (p : Port) (f : Link → Link) :
    (s.updLink p f).ctx p.other = s.ctx p.other := by cases p <;> rfl
@[simp] theorem State.post_ctx (s : State) (p : Port) (b : NoticeBody) :
    (s.post p b).ctx p = (s.ctx p).post (s.eventNotice b s.custody.generation) := by cases p <;> rfl
@[simp] theorem State.post_ctx_other (s : State) (p : Port) (b : NoticeBody) :
    (s.post p b).ctx p.other = s.ctx p.other := by cases p <;> rfl
@[simp] theorem State.updBoth_ctx (s : State) (p : Port) (f : PortContext → PortContext) :
    (s.updBoth f).ctx p = f (s.ctx p) := by cases p <;> rfl
@[simp] theorem State.raiseFlag_ctx (s : State) (p : Port) (f : Flag) : (s.raiseFlag f).ctx p = (s.ctx p).raise f := by
  cases p <;> rfl
@[simp] theorem State.postBoth_ctx (s : State) (p : Port) (b : NoticeBody) :
    (s.postBoth b).ctx p = (s.ctx p).post (s.eventNotice b s.custody.generation) := by cases p <;> rfl

end Sys2Proof.Machine
end

