-- ==== Sys2Proof/Laws/Kept.lean ====
section
/-! SUPPORT. What the shared operations keep (`State.Kept`): one lemma per operation of the spindle, the positioner, the
requests and the session. -/

namespace Sys2Proof.Machine

/-! ### The relation -/

theorem State.Kept.refl (s : State) : s.Kept s := ⟨rfl, rfl, rfl, rfl, rfl, rfl, id, id⟩

theorem State.Kept.trans {a b c : State} (h : a.Kept b) (k : b.Kept c) : a.Kept c := by
  obtain ⟨h1, h2, h3, h4, h5, h6, h7, h8⟩ := h
  obtain ⟨k1, k2, k3, k4, k5, k6, k7, k8⟩ := k
  exact ⟨k1.trans h1, k2.trans h2, k3.trans h3, k4.trans h4, k5.trans h5, k6.trans h6, k7 ∘ h7, k8 ∘ h8⟩

/-- A change of fields that `Kept` does not speak of. -/
@[simp] theorem kept_session (a s : State) (x : Option Session) : a.Kept { s with session := x } ↔ a.Kept s := Iff.rfl
@[simp] theorem kept_driveReq (a s : State) (x : Option DriveRequest) :
    a.Kept { s with driveReq := x } ↔ a.Kept s := Iff.rfl
@[simp] theorem kept_copy (a s : State) (x : Option MediaRecord) : a.Kept { s with copy := x } ↔ a.Kept s := Iff.rfl
@[simp] theorem kept_reservation (a s : State) (x : Option Reservation) :
    a.Kept { s with reservation := x } ↔ a.Kept s := Iff.rfl
@[simp] theorem kept_turn (a s : State) (x : Port) : a.Kept { s with turn := x } ↔ a.Kept s := Iff.rfl
@[simp] theorem kept_seq (a s : State) (x : Sequencer) : a.Kept { s with seq := x } ↔ a.Kept s := Iff.rfl
@[simp] theorem kept_fault (a s : State) (x : Bool) : a.Kept { s with faultOutstanding := x } ↔ a.Kept s := Iff.rfl
@[simp] theorem kept_recal (a s : State) (x : Bool) : a.Kept { s with recalOutstanding := x } ↔ a.Kept s := Iff.rfl
@[simp] theorem kept_carriage_pos (a s : State) (c : Nat) (x : Positioner) :
    a.Kept { s with carriage := c, pos := x } ↔ a.Kept s := Iff.rfl
@[simp] theorem kept_updPos (a s : State) (f : Positioner → Positioner) : a.Kept (s.updPos f) ↔ a.Kept s := Iff.rfl
@[simp] theorem kept_updSession (a s : State) (f : Session → Session) : a.Kept (s.updSession f) ↔ a.Kept s := Iff.rfl
@[simp] theorem kept_countFree (a s : State) : a.Kept s.countFree ↔ a.Kept s := Iff.rfl

/-- A cleared medium is in canonical form. -/
@[simp] theorem kept_medium_nil (a s : State) (h : a.Kept s) : a.Kept { s with medium := [] } := by
  obtain ⟨h1, h2, h3, h4, h5, h6, h7, h8⟩ := h
  exact ⟨h1, h2, h3, h4, h5, h6, fun k => ⟨⟨(h7 k).1.1, rfl⟩, (h7 k).2⟩, h8⟩

@[simp] theorem kept_copy_medium_nil (a s : State) (x : Option MediaRecord) (h : a.Kept s) :
    a.Kept { s with copy := x, medium := [] } := kept_medium_nil a s h

theorem kept_slots (a s : State) (x : List Slot) (hx : x.length = s.slots.length) (h : a.Kept s) :
    a.Kept { s with slots := x } := by
  obtain ⟨h1, h2, h3, h4, h5, h6, h7, h8⟩ := h
  exact ⟨h1, h2, h3, h4, h5, h6,
    fun k => ⟨(h7 k).1, (h7 k).2.1, (h7 k).2.2.1, ⟨hx.trans (h7 k).2.2.2.1.1, (h7 k).2.2.2.1.2⟩, (h7 k).2.2.2.2⟩, h8⟩

@[simp] theorem kept_mapSlots (a s : State) (f : Slot → Slot) (h : a.Kept s) : a.Kept (s.mapSlots f) :=
  kept_slots a s _ (by simp) h

@[simp] theorem kept_setSlot (a s : State) (k : Nat) (x : Slot) (h : a.Kept s) : a.Kept (s.setSlot k x) :=
  kept_slots a s _ (by simp) h

theorem foldl_set_length {α β : Type} (l : List β) (f : β → Nat) (g : β → α) (p : List α) :
    (l.foldl (fun p i => p.set (f i) (g i)) p).length = p.length := by
  induction l generalizing p with
  | nil => rfl
  | cons x rest ih => simpa using ih (p.set (f x) (g x))

/-- One place of the pool that is set counts at most one holder more, and none more for another holder. -/
theorem count_set_le (pool : List (Option Port)) (i : Nat) (o : Option Port) (p : Port) :
    ((pool.set i o).filter fun h => h == some p).length ≤
      (pool.filter fun h => h == some p).length + if o = some p then 1 else 0 := by
  induction pool generalizing i with
  | nil => simp
  | cons x rest ih =>
    cases i with
    | zero =>
      rw [List.set_cons_zero, List.filter_cons, List.filter_cons]
      by_cases ho : o = some p <;> by_cases hx : x = some p <;> simp [ho, hx]
    | succ j =>
      rw [List.set_cons_succ, List.filter_cons, List.filter_cons]
      have := ih j
      by_cases hx : x = some p <;> simp only [hx, beq_self_eq_true, beq_iff_eq, if_true, if_false, List.length_cons] <;>
        omega

/-- Giving out `l` buffers raises the count of their new holder by at most their number, and no other count. -/
theorem heldBuffers_assignBuffers (s : State) (l : List Nat) (o : Option Port) (p : Port) :
    (s.assignBuffers l o).heldBuffers p ≤ s.heldBuffers p + if o = some p then l.length else 0 := by
  unfold State.assignBuffers State.heldBuffers
  simp only
  induction l generalizing s with
  | nil => simp
  | cons i rest ih =>
    have h1 := ih { s with pool := s.pool.set i o }
    have h2 := count_set_le s.pool i o p
    simp only [List.foldl_cons, List.length_cons] at h1 ⊢
    split_ifs at h1 h2 ⊢ <;> omega

/-- Buffers handed to holder `o` keep the laws while no port then holds more than twelve. -/
theorem kept_assign (a s : State) (l : List Nat) (o : Option Port)
    (ho : ∀ p, o = some p → s.heldBuffers p + l.length ≤ 12) (h : a.Kept s) : a.Kept (s.assignBuffers l o) := by
  obtain ⟨h1, h2, h3, h4, h5, h6, h7, h8⟩ := h
  have hb (p : Port) (hp : s.heldBuffers p ≤ 12) : (s.assignBuffers l o).heldBuffers p ≤ 12 := by
    have hc := heldBuffers_assignBuffers s l o p
    have hd := ho p
    split_ifs at hc with hq
    · exact hc.trans (hd hq)
    · omega
  exact ⟨h1, h2, h3, h4, h5, h6, fun k => ⟨(h7 k).1, (h7 k).2.1, (h7 k).2.2.1, ⟨(h7 k).2.2.2.1.1,
    (foldl_set_length l id (fun _ => o) s.pool).trans (h7 k).2.2.2.1.2⟩,
    hb .a (h7 k).2.2.2.2.1, hb .b (h7 k).2.2.2.2.2⟩, h8⟩

@[simp] theorem kept_assignBuffers (a s : State) (l : List Nat) (h : a.Kept s) :
    a.Kept (s.assignBuffers l none) := kept_assign a s l none (fun _ hp => by cases hp) h

@[simp] theorem kept_setImage (a s : State) (x k : Nat) (i : SectorImage) (h : a.Kept s) :
    a.Kept (s.setImage x k i) := by
  obtain ⟨h1, h2, h3, h4, h5, h6, h7, h8⟩ := h
  exact ⟨h1, h2, h3, h4, h5, h6, fun k' => ⟨⟨(h7 k').1.1, sparseSet_wf _ _ _ _ (h7 k').1.2⟩, (h7 k').2⟩, h8⟩

@[simp] theorem kept_storeBuffer (a s : State) (b off : Nat) (l : List Byte) (h : a.Kept s) :
    a.Kept (s.storeBuffer b off l) := by
  obtain ⟨h1, h2, h3, h4, h5, h6, h7, h8⟩ := h
  exact ⟨h1, h2, h3, h4, h5, h6, fun k => ⟨⟨storeBytes_wf _ _ _ (h7 k).1.1, (h7 k).1.2⟩, (h7 k).2⟩, h8⟩

@[simp] theorem kept_setRamByte (a s : State) (x : Nat) (v : Byte) (h : a.Kept s) : a.Kept (s.setRamByte x v) := by
  obtain ⟨h1, h2, h3, h4, h5, h6, h7, h8⟩ := h
  exact ⟨h1, h2, h3, h4, h5, h6, fun k => ⟨⟨sparseSet_wf _ _ _ _ (h7 k).1.1, (h7 k).1.2⟩, (h7 k).2⟩, h8⟩

@[simp] theorem kept_updCustody (a s : State) (f : Custody → Custody) (hf : ∀ u, (f u).ejectPulse = u.ejectPulse)
    (h : a.Kept s) : a.Kept (s.updCustody f) := by
  obtain ⟨h1, h2, h3, h4, h5, h6, h7, h8⟩ := h
  exact ⟨h1, h2, h3, h4, h5, (hf _).trans h6, h7, h8⟩

@[simp] theorem kept_updSpindle (a s : State) (f : Spindle → Spindle) (hf : ∀ x, x.DutyLawful → (f x).DutyLawful)
    (h : a.Kept s) : a.Kept (s.updSpindle f) := by
  obtain ⟨h1, h2, h3, h4, h5, h6, h7, h8⟩ := h
  exact ⟨h1, h2, h3, h4, h5, h6, h7, fun k => hf _ (h8 k)⟩

@[simp] theorem kept_updCtx (a s : State) (p : Port) (f : PortContext → PortContext)
    (hf : ∀ c, c.Bounded → (f c).Bounded) (h : a.Kept s) : a.Kept (s.updCtx p f) := by
  obtain ⟨h1, h2, h3, h4, h5, h6, h7, h8⟩ := h
  cases p
  · exact ⟨h1, h2, h3, h4, h5, h6, fun k => ⟨(h7 k).1, hf _ (h7 k).2.1, (h7 k).2.2⟩, h8⟩
  · exact ⟨h1, h2, h3, h4, h5, h6, fun k => ⟨(h7 k).1, (h7 k).2.1, hf _ (h7 k).2.2.1, (h7 k).2.2.2⟩, h8⟩

@[simp] theorem kept_updBoth (a s : State) (f : PortContext → PortContext)
    (hf : ∀ c, c.Bounded → (f c).Bounded) (h : a.Kept s) : a.Kept (s.updBoth f) := by
  obtain ⟨h1, h2, h3, h4, h5, h6, h7, h8⟩ := h
  exact ⟨h1, h2, h3, h4, h5, h6,
    fun k => ⟨(h7 k).1, hf _ (h7 k).2.1, hf _ (h7 k).2.2.1, (h7 k).2.2.2⟩, h8⟩

@[simp] theorem kept_updLink (a s : State) (p : Port) (f : Link → Link) (h : a.Kept s) : a.Kept (s.updLink p f) :=
  kept_updCtx a s p _ (fun _ h => h) h

/-! ### Port contexts -/

theorem Bounded.map {c : PortContext} {f : Entry → Entry} (hf : ∀ e, (f e).tag = e.tag) (h : c.Bounded) :
    ({ c with queue := c.queue.map f } : PortContext).Bounded := by
  refine ⟨h.1, by simpa using h.2.1, ?_, h.2.2.2⟩
  have : (fun e => (f e).tag) = Entry.tag := funext hf
  simpa [List.map_map, Function.comp_def, this] using h.2.2.1

theorem Bounded.filter {c : PortContext} {q : Entry → Bool} (h : c.Bounded) :
    ({ c with queue := c.queue.filter q } : PortContext).Bounded :=
  ⟨h.1, (List.length_filter_le _ _).trans h.2.1, (List.filter_sublist.map Entry.tag).nodup h.2.2.1, h.2.2.2⟩

theorem Bounded.notices {c : PortContext} {l : List Notice} (hl : l.length ≤ 8) (h : c.Bounded) :
    ({ c with notices := l } : PortContext).Bounded := ⟨hl, h.2⟩

/-- The kinds of the pending set after a record is kept: those before, and the record's own. -/
theorem keepPending_priority (l : List Notice) (n : Notice) (k : Nat) :
    k ∈ (keepPending l n).map (fun m => m.body.priority) ↔ k = n.body.priority ∨ k ∈ l.map fun m => m.body.priority := by
  induction l with
  | nil => simp [keepPending]
  | cons m rest ih =>
    unfold keepPending
    split
    · simp
    · split
      · rename_i heq
        simp [heq]
      · rw [List.map_cons, List.mem_cons, ih, List.map_cons, List.mem_cons]
        tauto

/-- Keeping a record keeps the order of the pending set (R148). -/
theorem keepPending_sorted (l : List Notice) (n : Notice) (h : (l.map fun m => m.body.priority).Pairwise (· < ·)) :
    ((keepPending l n).map fun m => m.body.priority).Pairwise (· < ·) := by
  induction l with
  | nil => simp [keepPending]
  | cons m rest ih =>
    rw [List.map_cons, List.pairwise_cons] at h
    unfold keepPending
    split
    · rename_i hlt
      rw [List.map_cons, List.pairwise_cons, List.map_cons, List.pairwise_cons]
      refine ⟨?_, h⟩
      intro k hk
      rcases List.mem_cons.1 hk with rfl | hk
      · exact hlt
      · exact hlt.trans (h.1 k hk)
    · split
      · rename_i heq
        rw [List.map_cons, List.pairwise_cons, heq]
        exact h
      · rename_i hlt hne
        rw [List.map_cons, List.pairwise_cons]
        refine ⟨?_, ih h.2⟩
        intro k hk
        rcases (keepPending_priority rest n k).1 hk with rfl | hk
        · omega
        · exact h.1 k hk

@[simp] theorem PortContext.post_bounded (c : PortContext) (n : Notice) (h : c.Bounded) : (c.post n).Bounded := by
  unfold PortContext.post
  split
  · exact h
  · split
    · rename_i hlt
      exact Bounded.notices (by simp only [List.length_append, List.length_singleton]; unfold noticeRoom at hlt; omega) h
    · exact ⟨h.1, h.2.1, h.2.2.1, keepPending_sorted _ _ h.2.2.2⟩

@[simp] theorem PortContext.raise_bounded (c : PortContext) (f : Flag) (h : c.Bounded) : (c.raise f).Bounded := by
  unfold PortContext.raise
  split <;> exact h

@[simp] theorem PortContext.place_bounded (c : PortContext) (tag : Byte) (pl : Placement) (h : c.Bounded) :
    (c.place tag pl).Bounded := Bounded.map (by intro e; split <;> rfl) h

@[simp] theorem PortContext.placeTransfer_bounded (c : PortContext) (tag : Byte) (h : c.Bounded) :
    (c.placeTransfer tag).Bounded := by
  unfold PortContext.placeTransfer
  split
  · exact h
  · split
    · exact h
    · split
      · rename_i hlt
        refine Bounded.notices (l := _) ?_ (PortContext.place_bounded c tag .queued h)
        simp only [List.length_append, List.length_singleton]; unfold noticeRoom at hlt; omega
      · exact PortContext.place_bounded c tag .held h

@[simp] theorem PortContext.placeMaint_bounded (c : PortContext) (h : c.Bounded) : c.placeMaint.Bounded := by
  unfold PortContext.placeMaint
  split
  · exact h
  · split
    · exact h
    · split
      · rename_i hlt
        refine Bounded.notices (l := _) ?_ h
        simp only [List.length_append, List.length_singleton]; unfold noticeRoom at hlt; omega
      · exact h

theorem toList_length_le {α : Type} (o : Option α) : o.toList.length ≤ 1 := by cases o <;> simp

@[simp] theorem PortContext.refill_bounded (c : PortContext) (h : c.Bounded) : c.refill.Bounded := by
  unfold PortContext.refill
  split
  · exact h
  · rename_i hlt
    unfold noticeRoom at hlt
    split
    · rename_i n rest heq
      have hp := h.2.2.2
      rw [heq, List.map_cons, List.pairwise_cons] at hp
      exact ⟨by simp only [List.length_append, List.length_singleton]; omega, h.2.1, h.2.2.1, hp.2⟩
    · split
      · refine ⟨?_, h.2⟩
        have := toList_length_le (c.maint.map Maint.notice)
        simp only [List.length_append]; omega
      · split
        · exact h
        · rename_i tag _
          refine ⟨?_, (PortContext.place_bounded c tag .queued h).2⟩
          have := toList_length_le ((c.queue.find? fun e => e.tag == tag).map Entry.notice)
          simp only [List.length_append]; omega

@[simp] theorem PortContext.noticeFetched_bounded (c : PortContext) (tag : Byte) (h : c.Bounded) :
    (c.noticeFetched tag).Bounded := by
  unfold PortContext.noticeFetched
  split
  · exact h
  · split
    · exact Bounded.map (by intro e; split <;> rfl) h
    · exact Bounded.filter h

@[simp] theorem PortContext.takeNotice_bounded (c : PortContext) (h : c.Bounded) : c.takeNotice.Bounded := by
  unfold PortContext.takeNotice
  split
  · exact h
  · rename_i n rest heq
    apply PortContext.refill_bounded
    have h' : ({ c with notices := rest } : PortContext).Bounded :=
      Bounded.notices (by have := h.1; rw [heq] at this; simp only [List.length_cons] at this; omega) h
    dsimp only
    split
    · exact PortContext.noticeFetched_bounded _ _ h'
    · exact h'
    · exact h'

@[simp] theorem PortContext.noteOutcome_bounded (c : PortContext) (o : Outcome) (h : c.Bounded) :
    (c.noteOutcome o).Bounded := by
  unfold PortContext.noteOutcome
  split <;> exact h

@[simp] theorem kept_updEntry (a s : State) (p : Port) (tag : Byte) (f : Entry → Entry)
    (hf : ∀ e, (f e).tag = e.tag) (h : a.Kept s) : a.Kept (s.updEntry p tag f) :=
  kept_updCtx a s p _ (fun _ h => Bounded.map (by intro e; split <;> simp [hf]) h) h

@[simp] theorem kept_dropEntry (a s : State) (p : Port) (tag : Byte) (h : a.Kept s) : a.Kept (s.dropEntry p tag) :=
  kept_updCtx a s p _ (fun _ h => Bounded.filter h) h

@[simp] theorem kept_post (a s : State) (p : Port) (b : NoticeBody) (h : a.Kept s) : a.Kept (s.post p b) :=
  kept_updCtx a s p _ (fun c h => PortContext.post_bounded c _ h) h

@[simp] theorem kept_postBoth (a s : State) (b : NoticeBody) (h : a.Kept s) : a.Kept (s.postBoth b) :=
  kept_updBoth a s _ (fun c h => PortContext.post_bounded c _ h) h

@[simp] theorem kept_raiseFlag (a s : State) (f : Flag) (h : a.Kept s) : a.Kept (s.raiseFlag f) :=
  kept_updBoth a s _ (fun c h => PortContext.raise_bounded c f h) h

theorem kept_foldl {α : Type} (a : State) (l : List α) (f : State → α → State) (s : State)
    (hf : ∀ u x, a.Kept u → a.Kept (f u x)) (h : a.Kept s) : a.Kept (l.foldl f s) := by
  induction l generalizing s with
  | nil => exact h
  | cons x rest ih => exact ih _ (hf s x h)

/-! ### Spindle -/

/-- A spindle that changes neither its state nor its duty keeps the law of the duty. -/
theorem DutyLawful.same {x y : Spindle} (hs : y.state = x.state) (hd : y.duty = x.duty) (h : x.DutyLawful) :
    y.DutyLawful := by
  unfold Spindle.DutyLawful at *
  rw [hs, hd]
  exact h

@[simp] theorem kept_enterStarting (a s : State) (h : a.Kept s) : a.Kept s.enterStarting :=
  kept_updSpindle a s _ (fun _ _ => rfl) h

@[simp] theorem kept_spinRequest (a s : State) (h : a.Kept s) : a.Kept s.spinRequest := by
  unfold State.spinRequest
  have hr : a.Kept (s.updSpindle fun x => { x with restartFlag := true }) :=
    kept_updSpindle a s _ (fun _ hx => hx) h
  split
  · exact h
  · split
    · exact kept_enterStarting a s h
    · exact h
    · split <;> assumption
    · split <;> assumption
    · exact hr
    · exact h

@[simp] theorem kept_enterBraking (a s : State) (h : a.Kept s) : a.Kept s.enterBraking := by
  have ht : a.Kept { s with
      spindle := { s.spindle.stopTimers with
        state := .braking
        duty := 0
        quietTimer := s.startTimer 400000
        faultPending := false
        standbyStop := false }
      seq := { s.seq with current := none } } := by
    obtain ⟨h1, h2, h3, h4, h5, h6, h7, h8⟩ := h
    exact ⟨h1, h2, h3, h4, h5, h6, h7, fun _ => rfl⟩
  unfold State.enterBraking
  dsimp only
  split
  · exact kept_spinRequest a _ ht
  · exact ht

@[simp] theorem kept_enterStopped (a s : State) (h : a.Kept s) : a.Kept s.enterStopped := by
  unfold State.enterStopped
  have ht := kept_updSpindle a s (fun x => { x.stopTimers with state := .stopped, duty := 0, standbyFlag := false })
    (fun _ _ => rfl) h
  dsimp only
  split
  · exact kept_spinRequest a _ ht
  · exact ht

/-- A regulated duty stays within 40 to 255 (R18, R20). -/
theorem nextDuty_bounds (d p : Nat) : 40 ≤ nextDuty d p ∧ nextDuty d p ≤ 255 := by
  unfold nextDuty clampInt
  split_ifs <;> omega

/-! ### What the automation below needs -/

@[simp] theorem duty_restart (x : Spindle) (b : Bool) :
    ({ x with restartFlag := b } : Spindle).DutyLawful ↔ x.DutyLawful := Iff.rfl
@[simp] theorem duty_standby (x : Spindle) (b : Bool) :
    ({ x with standbyFlag := b } : Spindle).DutyLawful ↔ x.DutyLawful := Iff.rfl
@[simp] theorem duty_stop (x : Spindle) (b : Bool) (n : Nat) (t : Option Timer) :
    ({ x with standbyStop := b, idleCount := n, idleTimer := t } : Spindle).DutyLawful ↔ x.DutyLawful := Iff.rfl
@[simp] theorem duty_idle (x : Spindle) (n : Nat) (t : Option Timer) :
    ({ x with idleCount := n, idleTimer := t } : Spindle).DutyLawful ↔ x.DutyLawful := Iff.rfl
@[simp] theorem kept_ite (a x y : State) (c : Prop) [Decidable c] (hx : a.Kept x) (hy : a.Kept y) :
    a.Kept (if c then x else y) := by split <;> assumption
@[simp] theorem bounded_lock (c : PortContext) (b : Bool) : ({ c with lockHeld := b } : PortContext).Bounded ↔ c.Bounded :=
  Iff.rfl
@[simp] theorem bounded_maint (c : PortContext) (m : Option Maint) : ({ c with maint := m } : PortContext).Bounded ↔ c.Bounded :=
  Iff.rfl
@[simp] theorem bounded_ack (c : PortContext) (n : Nat) : ({ c with acknowledged := n } : PortContext).Bounded ↔ c.Bounded :=
  Iff.rfl
@[simp] theorem bounded_cond (c : PortContext) (x : Conditions) : ({ c with conditions := x } : PortContext).Bounded ↔ c.Bounded :=
  Iff.rfl
@[simp] theorem bounded_present (c : PortContext) (x : Bool) : ({ c with linkPresent := x } : PortContext).Bounded ↔ c.Bounded :=
  Iff.rfl
@[simp] theorem complete_tag (e : Entry) (o : XferOutcome) (t : Time) : (e.complete o t).tag = e.tag := rfl
theorem armSlots_length {α : Type} (l : List Nat) (g : Nat → α) (p : List α) :
    (l.foldl (fun p i => p.set i (g i)) p).length = p.length := foldl_set_length l id g p
@[simp] theorem kept_armSlots (a s : State) (owner : SlotOwner) (tag : Option Byte) (retries : Nat) (sectors : List Nat)
    (h : a.Kept s) : a.Kept (s.armSlots owner tag retries sectors) :=
  kept_slots a s _ (armSlots_length sectors (fun _ => _) s.slots) h
@[simp] theorem kept_rejudgeArmed (a s : State) (h : a.Kept s) : a.Kept s.rejudgeArmed :=
  kept_slots a s _ (by simp) h

end Sys2Proof.Machine
end

