-- ==== Sys2Proof/Laws/KeptOps.lean ====
section
/-! SUPPORT. What the shared operations keep (`State.Kept`), one lemma per operation, in the order of the files that
define them. -/

namespace Sys2Proof.Machine

@[simp] theorem kept_pulse (a s : State) (f : Profile) (wait : Nat) (h : a.Kept s) : a.Kept (s.pulse f wait) := by
  unfold State.pulse
  (repeat' (first | split | dsimp only)) <;>
    first | assumption | (simp +contextual [h]; done) | (apply kept_foldl <;> simp +contextual [h]; done)

@[simp] theorem kept_setUncertain (a s : State) (h : a.Kept s) : a.Kept s.setUncertain := by
  unfold State.setUncertain
  (repeat' (first | split | dsimp only)) <;>
    first | assumption | (simp +contextual [h]; done) | (apply kept_foldl <;> simp +contextual [h]; done)

@[simp] theorem kept_startMove (a s : State) (f : Profile) (h : a.Kept s) : a.Kept (s.startMove f) := by
  unfold State.startMove
  (repeat' (first | split | dsimp only)) <;>
    first | assumption | (simp +contextual [h]; done) | (apply kept_foldl <;> simp +contextual [h]; done)

@[simp] theorem kept_enterSettling (a s : State) (settle : Nat) (h : a.Kept s) : a.Kept (s.enterSettling settle) := by
  unfold State.enterSettling
  (repeat' (first | split | dsimp only)) <;>
    first | assumption | (simp +contextual [h]; done) | (apply kept_foldl <;> simp +contextual [h]; done)

@[simp] theorem kept_beginSeek (a s : State) (p : Nat) (h : a.Kept s) : a.Kept (s.beginSeek p) := by
  unfold State.beginSeek
  (repeat' (first | split | dsimp only)) <;>
    first | assumption | (simp +contextual [h]; done) | (apply kept_foldl <;> simp +contextual [h]; done)

@[simp] theorem kept_beginCreep (a s : State) (h : a.Kept s) : a.Kept s.beginCreep := by
  unfold State.beginCreep
  (repeat' (first | split | dsimp only)) <;>
    first | assumption | (simp +contextual [h]; done) | (apply kept_foldl <;> simp +contextual [h]; done)

@[simp] theorem kept_beginRecalibration (a s : State) (h : a.Kept s) : a.Kept s.beginRecalibration := by
  unfold State.beginRecalibration
  (repeat' (first | split | dsimp only)) <;>
    first | assumption | (simp +contextual [h]; done) | (apply kept_foldl <;> simp +contextual [h]; done)

@[simp] theorem kept_beginLoad (a s : State) (plan : List Stage) (h : a.Kept s) : a.Kept (s.beginLoad plan) := by
  unfold State.beginLoad
  (repeat' (first | split | dsimp only)) <;>
    first | assumption | (simp +contextual [h]; done) | (apply kept_foldl <;> simp +contextual [h]; done)

@[simp] theorem kept_beginRetract (a s : State) (h : a.Kept s) : a.Kept s.beginRetract := by
  unfold State.beginRetract
  (repeat' (first | split | dsimp only)) <;>
    first | assumption | (simp +contextual [h]; done) | (apply kept_foldl <;> simp +contextual [h]; done)

@[simp] theorem kept_unload (a s : State) (h : a.Kept s) : a.Kept s.unload := by
  unfold State.unload
  (repeat' (first | split | dsimp only)) <;>
    first | assumption | (simp +contextual [h]; done) | (apply kept_foldl <;> simp +contextual [h]; done)

@[simp] theorem kept_abandonLoad (a s : State) (h : a.Kept s) : a.Kept s.abandonLoad := by
  unfold State.abandonLoad
  (repeat' (first | split | dsimp only)) <;>
    first | assumption | (simp +contextual [h]; done) | (apply kept_foldl <;> simp +contextual [h]; done)

@[simp] theorem kept_seekRequest (a s : State) (p : Nat) (h : a.Kept s) : a.Kept (s.seekRequest p) := by
  unfold State.seekRequest
  (repeat' (first | split | dsimp only)) <;>
    first | assumption | (simp +contextual [h]; done) | (apply kept_foldl <;> simp +contextual [h]; done)

@[simp] theorem kept_dropWaiting (a s : State) (h : a.Kept s) : a.Kept s.dropWaiting := by
  unfold State.dropWaiting
  (repeat' (first | split | dsimp only)) <;>
    first | assumption | (simp +contextual [h]; done) | (apply kept_foldl <;> simp +contextual [h]; done)

@[simp] theorem kept_sensorFound (a s : State) (h : a.Kept s) : a.Kept s.sensorFound := by
  unfold State.sensorFound
  extract_lets _ t
  have ht : a.Kept t := h
  clear_value t
  split
  · exact ht
  · split
    · exact kept_beginSeek a t _ ht
    · exact kept_enterSettling a t _ ht

@[simp] theorem kept_takeStandby (a s : State) (h : a.Kept s) : a.Kept s.takeStandby := by
  unfold State.takeStandby
  (repeat' (first | split | dsimp only)) <;>
    first | assumption | (simp +contextual [h]; done) | (apply kept_foldl <;> simp +contextual [h]; done)

@[simp] theorem kept_judgeIdle (a s : State) (h : a.Kept s) : a.Kept s.judgeIdle := by
  unfold State.judgeIdle
  (repeat' (first | split | dsimp only)) <;>
    first | assumption | (simp +contextual [h]; done) | (apply kept_foldl <;> simp +contextual [h]; done)

@[simp] theorem kept_completeEntry (a s : State) (p : Port) (tag : Byte) (o : XferOutcome)
    (h : a.Kept s) : a.Kept (s.completeEntry p tag o) := by
  unfold State.completeEntry
  split
  · exact h
  · extract_lets t u
    have ht : a.Kept t := kept_updEntry a s p tag _ (fun _ => rfl) h
    have hu : a.Kept u := by
      show a.Kept (if _ then _ else _)
      split
      · exact kept_assignBuffers a t _ ht
      · exact ht
    exact kept_updCtx a u p _ (fun c hc => PortContext.placeTransfer_bounded c tag hc) hu

@[simp] theorem kept_removeEntry (a s : State) (p : Port) (tag : Byte)
    (h : a.Kept s) : a.Kept (s.removeEntry p tag) := by
  unfold State.removeEntry
  (repeat' (first | split | dsimp only)) <;>
    first | assumption | (simp +contextual [h]; done) | (apply kept_foldl <;> simp +contextual [h]; done)

@[simp] theorem kept_emptySlots (a s : State) (p : Port) (tag : Byte)
    (h : a.Kept s) : a.Kept (s.emptySlots p tag) := by
  unfold State.emptySlots
  (repeat' (first | split | dsimp only)) <;>
    first | assumption | (simp +contextual [h]; done) | (apply kept_foldl <;> simp +contextual [h]; done)

@[simp] theorem kept_emptyWaitingSlots (a s : State) (p : Port) (tag : Byte)
    (h : a.Kept s) : a.Kept (s.emptyWaitingSlots p tag) := by
  unfold State.emptyWaitingSlots
  (repeat' (first | split | dsimp only)) <;>
    first | assumption | (simp +contextual [h]; done) | (apply kept_foldl <;> simp +contextual [h]; done)

@[simp] theorem kept_emptyOtherSlots (a s : State) (p : Port) (tag : Byte)
    (h : a.Kept s) : a.Kept (s.emptyOtherSlots p tag) := by
  unfold State.emptyOtherSlots
  (repeat' (first | split | dsimp only)) <;>
    first | assumption | (simp +contextual [h]; done) | (apply kept_foldl <;> simp +contextual [h]; done)

@[simp] theorem kept_dropGate (a s : State) (h : a.Kept s) : a.Kept s.dropGate := by
  unfold State.dropGate
  (repeat' (first | split | dsimp only)) <;>
    first | assumption | (simp +contextual [h]; done) | (apply kept_foldl <;> simp +contextual [h]; done)

@[simp] theorem kept_dropGateByLaw (a s : State) (h : a.Kept s) : a.Kept s.dropGateByLaw := by
  unfold State.dropGateByLaw
  (repeat' (first | split | dsimp only)) <;>
    first | assumption | (simp +contextual [h]; done) | (apply kept_foldl <;> simp +contextual [h]; done)

@[simp] theorem kept_armEntry (a s : State) (p : Port) (tag : Byte) (h : a.Kept s) : a.Kept (s.armEntry p tag) := by
  unfold State.armEntry
  (repeat' (first | split | dsimp only)) <;>
    first | assumption | (simp +contextual [h]; done) | (apply kept_foldl <;> simp +contextual [h]; done)

@[simp] theorem kept_takeIn (a s : State) (p : Port) (tag : Byte) (track : Nat)
    (h : a.Kept s) : a.Kept (s.takeIn p tag track) := by
  unfold State.takeIn
  (repeat' (first | split | dsimp only)) <;>
    first | assumption | (simp +contextual [h]; done) | (apply kept_foldl <;> simp +contextual [h]; done)

@[simp] theorem kept_judgeJoin (a s : State) (p : Port) (tag : Byte) (h : a.Kept s) : a.Kept (s.judgeJoin p tag) := by
  unfold State.judgeJoin
  (repeat' (first | split | dsimp only)) <;>
    first | assumption | (simp +contextual [h]; done) | (apply kept_foldl <;> simp +contextual [h]; done)

@[simp] theorem kept_judgeJoins (a s : State) (h : a.Kept s) : a.Kept s.judgeJoins := by
  unfold State.judgeJoins
  exact kept_foldl a _ _ _ (fun u tag hu => kept_judgeJoin a u .b tag hu)
    (kept_foldl a _ _ _ (fun u tag hu => kept_judgeJoin a u .a tag hu) h)

@[simp] theorem kept_closeSession (a s : State) (h : a.Kept s) : a.Kept s.closeSession := by
  unfold State.closeSession
  (repeat' (first | split | dsimp only)) <;>
    first | assumption | (simp +contextual [h]; done) | (apply kept_foldl <;> simp +contextual [h]; done)

@[simp] theorem kept_closeJudgement (a s : State) (h : a.Kept s) : a.Kept s.closeJudgement := by
  unfold State.closeJudgement
  (repeat' (first | split | dsimp only)) <;>
    first | assumption | (simp +contextual [h]; done) | (apply kept_foldl <;> simp +contextual [h]; done)

@[simp] theorem kept_armCandidates (a s : State) (h : a.Kept s) : a.Kept s.armCandidates := by
  unfold State.armCandidates
  exact kept_foldl a _ _ _
    (fun u p hu => kept_foldl a _ _ _ (fun v e hv => kept_armEntry a v p e.tag hv) hu) h

@[simp] theorem kept_armDrive (a s : State) (h : a.Kept s) : a.Kept s.armDrive := by
  unfold State.armDrive
  (repeat' (first | split | dsimp only)) <;>
    first | assumption | (simp +contextual [h]; done) | (apply kept_foldl <;> simp +contextual [h]; done)

@[simp] theorem kept_armingPass (a s : State) (h : a.Kept s) : a.Kept s.armingPass := by
  unfold State.armingPass
  split
  · exact h
  · rename_i x _
    extract_lets t u
    have ht : a.Kept t := h
    have hu : a.Kept u := by
      show a.Kept (if _ then _ else _)
      split
      · exact kept_armDrive a t ht
      · exact kept_judgeJoins a _ (kept_armCandidates a t ht)
    clear_value u
    split
    · exact kept_closeJudgement a u hu
    · exact hu

@[simp] theorem kept_resumeSession (a s : State) (h : a.Kept s) : a.Kept s.resumeSession := by
  unfold State.resumeSession
  (repeat' (first | split | dsimp only)) <;>
    first | assumption | (simp +contextual [h]; done) | (apply kept_foldl <;> simp +contextual [h]; done)

@[simp] theorem kept_reservationChanged (a s : State) (h : a.Kept s) : a.Kept s.reservationChanged := by
  unfold State.reservationChanged
  (repeat' (first | split | dsimp only)) <;>
    first | assumption | (simp +contextual [h]; done) | (apply kept_foldl <;> simp +contextual [h]; done)

@[simp] theorem kept_entryReady (a s : State) (p : Port) (tag : Byte)
    (h : a.Kept s) : a.Kept (s.entryReady p tag) := by
  unfold State.entryReady
  (repeat' (first | split | dsimp only)) <;>
    first | assumption | (simp +contextual [h]; done) | (apply kept_foldl <;> simp +contextual [h]; done)

@[simp] theorem kept_cancelEntry (a s : State) (p : Port) (tag : Byte)
    (h : a.Kept s) : a.Kept (s.cancelEntry p tag) := by
  unfold State.cancelEntry
  split
  · exact h
  · split
    · exact h
    · split
      · exact kept_updEntry a _ p tag _ (fun _ => rfl) (kept_emptyWaitingSlots a s p tag h)
      · exact kept_closeJudgement a _ (kept_completeEntry a _ p tag _ (kept_emptySlots a s p tag h))

@[simp] theorem kept_cancelReady (a s : State) (p : Port) (pick : Entry → Bool)
    (h : a.Kept s) : a.Kept (s.cancelReady p pick) := by
  unfold State.cancelReady
  (repeat' (first | split | dsimp only)) <;>
    first | assumption | (simp +contextual [h]; done) | (apply kept_foldl <;> simp +contextual [h]; done)

@[simp] theorem kept_cancelInSession (a s : State) (p : Port) (pick : Entry → Bool)
    (h : a.Kept s) : a.Kept (s.cancelInSession p pick) := by
  unfold State.cancelInSession
  (repeat' (first | split | dsimp only)) <;>
    first | assumption | (simp +contextual [h]; done) | (apply kept_foldl <;> simp +contextual [h]; done)

@[simp] theorem kept_cancelAll (a s : State) (pick : Entry → Bool) (h : a.Kept s) : a.Kept (s.cancelAll pick) := by
  unfold State.cancelAll
  exact kept_cancelInSession a _ .b pick (kept_cancelInSession a _ .a pick
    (kept_cancelReady a _ .b pick (kept_cancelReady a s .a pick h)))

@[simp] theorem kept_sessionSeekDone (a s : State) (h : a.Kept s) : a.Kept s.sessionSeekDone := by
  unfold State.sessionSeekDone
  (repeat' (first | split | dsimp only)) <;>
    first | assumption | (simp +contextual [h]; done) | (apply kept_foldl <;> simp +contextual [h]; done)

@[simp] theorem kept_sessionSeekAbandoned (a s : State) (h : a.Kept s) : a.Kept s.sessionSeekAbandoned := by
  unfold State.sessionSeekAbandoned
  (repeat' (first | split | dsimp only)) <;>
    first | assumption | (simp +contextual [h]; done) | (apply kept_foldl <;> simp +contextual [h]; done)

@[simp] theorem kept_discardWaiting (a s : State) (h : a.Kept s) : a.Kept s.discardWaiting := by
  unfold State.discardWaiting
  (repeat' (first | split | dsimp only)) <;>
    first | assumption | (simp +contextual [h]; done) | (apply kept_foldl <;> simp +contextual [h]; done)

@[simp] theorem kept_retractRequest (a s : State) (h : a.Kept s) : a.Kept s.retractRequest := by
  unfold State.retractRequest
  (repeat' (first | split | dsimp only)) <;>
    first | assumption | (simp +contextual [h]; done) | (apply kept_foldl <;> simp +contextual [h]; done)

@[simp] theorem kept_clearLocks (a s : State) (h : a.Kept s) : a.Kept s.clearLocks := by
  unfold State.clearLocks
  (repeat' (first | split | dsimp only)) <;>
    first | assumption | (simp +contextual [h]; done) | (apply kept_foldl <;> simp +contextual [h]; done)

@[simp] theorem kept_freeReservation (a s : State) (toHolder : Option NoticeBody)
    (h : a.Kept s) : a.Kept (s.freeReservation toHolder) := by
  unfold State.freeReservation
  split
  · exact h
  · rename_i r _
    extract_lets t u
    have ht : a.Kept t := h
    have hu : a.Kept u := by
      show a.Kept (match toHolder with | none => t | some b => t.post r.holder b)
      split
      · exact ht
      · exact kept_post a t _ _ ht
    exact kept_judgeJoins a _ (kept_post a u _ _ hu)

@[simp] theorem kept_breakReservation (a s : State) (h : a.Kept s) : a.Kept s.breakReservation := by
  unfold State.breakReservation
  (repeat' (first | split | dsimp only)) <;>
    first | assumption | (simp +contextual [h]; done) | (apply kept_foldl <;> simp +contextual [h]; done)

@[simp] theorem kept_freeIfHeldBy (a s : State) (p : Port) (h : a.Kept s) : a.Kept (s.freeIfHeldBy p) := by
  unfold State.freeIfHeldBy
  (repeat' (first | split | dsimp only)) <;>
    first | assumption | (simp +contextual [h]; done) | (apply kept_foldl <;> simp +contextual [h]; done)

@[simp] theorem kept_raiseGeneration (a s : State) (h : a.Kept s) : a.Kept s.raiseGeneration := by
  unfold State.raiseGeneration
  (repeat' (first | split | dsimp only)) <;>
    first | assumption | (simp +contextual [h]; done) | (apply kept_foldl <;> simp +contextual [h]; done)

@[simp] theorem kept_enterUnmounting (a s : State) (h : a.Kept s) : a.Kept s.enterUnmounting := by
  unfold State.enterUnmounting
  (repeat' (first | split | dsimp only)) <;>
    first | assumption | (simp +contextual [h]; done) | (apply kept_foldl <;> simp +contextual [h]; done)

@[simp] theorem kept_rejectMount (a s : State) (r : RejectReason) (h : a.Kept s) : a.Kept (s.rejectMount r) := by
  unfold State.rejectMount
  exact kept_enterUnmounting a _ (kept_postBoth a _ _ (kept_clearLocks a _ (kept_updCustody a s _ (fun _ => rfl) h)))

@[simp] theorem kept_enterSpinning (a s : State) (h : a.Kept s) : a.Kept s.enterSpinning := by
  unfold State.enterSpinning
  (repeat' (first | split | dsimp only)) <;>
    first | assumption | (simp +contextual [h]; done) | (apply kept_foldl <;> simp +contextual [h]; done)

@[simp] theorem kept_enterEjectPending (a s : State) (c : EjectCause)
    (h : a.Kept s) : a.Kept (s.enterEjectPending c) := by
  unfold State.enterEjectPending
  (repeat' (first | split | dsimp only)) <;>
    first | assumption | (simp +contextual [h]; done) | (apply kept_foldl <;> simp +contextual [h]; done)

@[simp] theorem kept_newAttempt (a s : State) (h : a.Kept s) : a.Kept s.newAttempt := by
  unfold State.newAttempt
  (repeat' (first | split | dsimp only)) <;>
    first | assumption | (simp +contextual [h]; done) | (apply kept_foldl <;> simp +contextual [h]; done)

@[simp] theorem kept_askPort (a s : State) (p : Port) (h : a.Kept s) : a.Kept (s.askPort p) := by
  unfold State.askPort
  (repeat' (first | split | dsimp only)) <;>
    first | assumption | (simp +contextual [h]; done) | (apply kept_foldl <;> simp +contextual [h]; done)

@[simp] theorem kept_refusePress (a s : State) (h : a.Kept s) : a.Kept s.refusePress := by
  unfold State.refusePress
  exact kept_askPort a _ .b (kept_askPort a _ .a (kept_updCustody a s _ (fun _ => rfl) h))

@[simp] theorem kept_shortPress (a s : State) (h : a.Kept s) : a.Kept s.shortPress := by
  unfold State.shortPress
  (repeat' (first | split | dsimp only)) <;>
    first | assumption | (simp +contextual [h]; done) | (apply kept_foldl <;> simp +contextual [h]; done)

@[simp] theorem kept_forcedEject (a s : State) (h : a.Kept s) : a.Kept s.forcedEject := by
  unfold State.forcedEject
  exact kept_enterEjectPending a _ _ (kept_cancelAll a _ _ (kept_breakReservation a _ (kept_clearLocks a s h)))

@[simp] theorem kept_forcedMountRejection (a s : State) (h : a.Kept s) : a.Kept s.forcedMountRejection := by
  unfold State.forcedMountRejection
  extract_lets t
  have ht : a.Kept t := kept_breakReservation a _ (kept_clearLocks a s h)
  clear_value t
  split
  · exact kept_updCustody a t _ (fun _ => rfl) ht
  · exact kept_rejectMount a t _ ht
  · exact kept_rejectMount a t _ ht
  · exact kept_rejectMount a t _ ht
  · exact kept_updCustody a t _ (fun _ => rfl) ht
  · exact ht

@[simp] theorem kept_longPress (a s : State) (h : a.Kept s) : a.Kept s.longPress := by
  unfold State.longPress
  split
  · exact h
  · split
    · exact kept_forcedEject a s h
    · exact kept_forcedEject a s h
    · exact kept_forcedEject a s h
    · exact kept_forcedMountRejection a s h
    · exact kept_newAttempt a s h
    · exact h

@[simp] theorem kept_mountComplete (a s : State) (record : Option MediaRecord)
    (h : a.Kept s) : a.Kept (s.mountComplete record) := by
  unfold State.mountComplete
  extract_lets _ t u v w
  have ht : a.Kept t := kept_updCustody a s _ (fun _ => rfl) h
  have hu : a.Kept u := kept_clearLocks a _ (kept_raiseGeneration a t ht)
  have hv : a.Kept v := kept_postBoth a u _ hu
  have hw : a.Kept w := kept_updCustody a v _ (fun _ => rfl) hv
  clear_value w
  split
  · exact kept_shortPress a _ (kept_updCustody a w _ (fun _ => rfl) hw)
  · exact hw

@[simp] theorem kept_recordReadJudgement (a s : State) (o : DriveOutcome)
    (h : a.Kept s) : a.Kept (s.recordReadJudgement o) := by
  unfold State.recordReadJudgement
  (repeat' (first | split | dsimp only)) <;>
    first | assumption | (simp +contextual [h]; done) | (apply kept_foldl <;> simp +contextual [h]; done)

@[simp] theorem kept_custodyRecalFailed (a s : State) (h : a.Kept s) : a.Kept s.custodyRecalFailed := by
  unfold State.custodyRecalFailed
  (repeat' (first | split | dsimp only)) <;>
    first | assumption | (simp +contextual [h]; done) | (apply kept_foldl <;> simp +contextual [h]; done)

@[simp] theorem kept_custodyRecalDone (a s : State) (h : a.Kept s) : a.Kept s.custodyRecalDone := by
  unfold State.custodyRecalDone
  (repeat' (first | split | dsimp only)) <;>
    first | assumption | (simp +contextual [h]; done) | (apply kept_foldl <;> simp +contextual [h]; done)

@[simp] theorem kept_custodyRecalSeen (a s : State) (h : a.Kept s) : a.Kept s.custodyRecalSeen := by
  unfold State.custodyRecalSeen
  (repeat' (first | split | dsimp only)) <;>
    first | assumption | (simp +contextual [h]; done) | (apply kept_foldl <;> simp +contextual [h]; done)

@[simp] theorem kept_recalibrateRequest (a s : State) (h : a.Kept s) : a.Kept s.recalibrateRequest := by
  unfold State.recalibrateRequest
  (repeat' (first | split | dsimp only)) <;>
    first | assumption | (simp +contextual [h]; done) | (apply kept_foldl <;> simp +contextual [h]; done)

@[simp] theorem kept_custodySpindleFault (a s : State) (h : a.Kept s) : a.Kept s.custodySpindleFault := by
  unfold State.custodySpindleFault
  (repeat' (first | split | dsimp only)) <;>
    first | assumption | (simp +contextual [h]; done) | (apply kept_foldl <;> simp +contextual [h]; done)

@[simp] theorem kept_custodySupplyEdge (a s : State) (h : a.Kept s) : a.Kept s.custodySupplyEdge := by
  unfold State.custodySupplyEdge
  (repeat' (first | split | dsimp only)) <;>
    first | assumption | (simp +contextual [h]; done) | (apply kept_foldl <;> simp +contextual [h]; done)

@[simp] theorem kept_custodyRecovery (a s : State) (h : a.Kept s) : a.Kept s.custodyRecovery := by
  unfold State.custodyRecovery
  (repeat' (first | split | dsimp only)) <;>
    first | assumption | (simp +contextual [h]; done) | (apply kept_foldl <;> simp +contextual [h]; done)

@[simp] theorem kept_completeRelease (a s : State) (h : a.Kept s) : a.Kept s.completeRelease := by
  unfold State.completeRelease
  extract_lets cause t u v w
  have ht : a.Kept t := kept_medium_nil a _ h
  have hu : a.Kept u := kept_updCustody a t _ (fun _ => rfl) ht
  have hv : a.Kept v := kept_clearLocks a u hu
  have hw : a.Kept w := by
    show a.Kept (if _ then _ else _)
    split
    · exact hv
    · exact kept_postBoth a v _ hv
  exact kept_updCustody a w _ (fun _ => rfl) hw

@[simp] theorem kept_stopRequest (a s : State) (h : a.Kept s) : a.Kept s.stopRequest := by
  unfold State.stopRequest
  (repeat' (first | split | dsimp only)) <;>
    first | assumption | (simp +contextual [h]; done) | (apply kept_foldl <;> simp +contextual [h]; done)

@[simp] theorem kept_commitRecord (a s : State) (starting : StartingCustody) (r : MediaRecord)
    (h : a.Kept s) : a.Kept (s.commitRecord starting r) := by
  unfold State.commitRecord
  split
  · extract_lets t u
    have ht : a.Kept t := kept_updCustody a s _ (fun _ => rfl) h
    exact kept_cancelAll a _ _ (kept_postBoth a _ _ (kept_raiseGeneration a t ht))
  · exact h
  · exact h

@[simp] theorem kept_commit (a s : State) (m : Maint) (h : a.Kept s) : a.Kept (s.commit m) := by
  unfold State.commit
  (repeat' (first | split | dsimp only)) <;>
    first | assumption | (simp +contextual [h]; done) | (apply kept_foldl <;> simp +contextual [h]; done)

@[simp] theorem kept_maintenanceEnd (a s : State) (p : Port) (o : DriveOutcome)
    (h : a.Kept s) : a.Kept (s.maintenanceEnd p o) := by
  unfold State.maintenanceEnd
  split
  · exact h
  · rename_i m _
    extract_lets t n
    have ht : a.Kept t := by
      show a.Kept (match o with
        | .done => _
        | .failed _ => _)
      split
      · exact kept_commit a s m h
      · exact h
    split
    · exact kept_updCtx a t p _ (fun _ hc => hc) ht
    · exact kept_updCtx a t p _ (fun c hc => PortContext.placeMaint_bounded _ hc) ht

@[simp] theorem kept_reportDrive (a s : State) (o : DriveOutcome) (h : a.Kept s) : a.Kept (s.reportDrive o) := by
  unfold State.reportDrive
  (repeat' (first | split | dsimp only)) <;>
    first | assumption | (simp +contextual [h]; done) | (apply kept_foldl <;> simp +contextual [h]; done)

@[simp] theorem kept_failEntry (a s : State) (p : Port) (e : Entry) (cause : Cause)
    (h : a.Kept s) : a.Kept (s.failEntry p e cause) := by
  unfold State.failEntry
  (repeat' (first | split | dsimp only)) <;>
    first | assumption | (simp +contextual [h]; done) | (apply kept_foldl <;> simp +contextual [h]; done)

@[simp] theorem kept_failEntries (a s : State) (cause : Cause) (h : a.Kept s) : a.Kept (s.failEntries cause) := by
  unfold State.failEntries
  exact kept_foldl a _ _ _
    (fun u p hu => kept_foldl a _ _ _ (fun v e hv => kept_failEntry a v p e cause hv) hu) h

@[simp] theorem kept_failSession (a s : State) (cause activeCause : Cause)
    (h : a.Kept s) : a.Kept (s.failSession cause activeCause) := by
  unfold State.failSession
  split
  · exact h
  · rename_i x _
    extract_lets t _ u v w y z r
    have ht : a.Kept t := kept_dropGate a s h
    have hw : a.Kept w := kept_mapSlots a v _ ht
    have hy : a.Kept y := kept_failEntries a w cause hw
    have hz : a.Kept z := by
      show a.Kept (if _ then _ else _)
      split
      · exact kept_reportDrive a y _ hy
      · exact hy
    have hr : a.Kept r := by
      show a.Kept (if _ then _ else _)
      split
      · exact kept_dropWaiting a z hz
      · exact hz
    exact kept_closeJudgement a r hr

@[simp] theorem kept_failWaitingRequest (a s : State) (cause : Cause)
    (h : a.Kept s) : a.Kept (s.failWaitingRequest cause) := by
  unfold State.failWaitingRequest
  (repeat' (first | split | dsimp only)) <;>
    first | assumption | (simp +contextual [h]; done) | (apply kept_foldl <;> simp +contextual [h]; done)

@[simp] theorem kept_mismatchAct (a s : State) (h : a.Kept s) : a.Kept s.mismatchAct := by
  unfold State.mismatchAct
  (repeat' (first | split | dsimp only)) <;>
    first | assumption | (simp +contextual [h]; done) | (apply kept_foldl <;> simp +contextual [h]; done)

@[simp] theorem kept_mismatchRearm (a s : State) (k : Nat) (h : a.Kept s) : a.Kept (s.mismatchRearm k) := by
  unfold State.mismatchRearm
  (repeat' (first | split | dsimp only)) <;>
    first | assumption | (simp +contextual [h]; done) | (apply kept_foldl <;> simp +contextual [h]; done)

@[simp] theorem kept_judgeCompletion (a s : State) (p : Port) (tag : Byte)
    (h : a.Kept s) : a.Kept (s.judgeCompletion p tag) := by
  unfold State.judgeCompletion
  split
  · exact h
  · split
    · exact h
    · exact kept_closeJudgement a _ (kept_completeEntry a _ p tag _ (kept_emptySlots a s p tag h))

@[simp] theorem kept_endDriveOp (a s : State) (k : Nat) (r : OpResult)
    (h : a.Kept s) : a.Kept (s.endDriveOp k r) := by
  unfold State.endDriveOp
  split
  · exact kept_closeJudgement a _ (kept_reportDrive a s _ h)
  · exact kept_mismatchAct a _ (kept_mismatchRearm a s k h)
  · extract_lets t
    have ht : a.Kept t := kept_setSlot a s k _ h
    clear_value t
    split
    · exact kept_closeJudgement a _ (kept_reportDrive a t _ ht)
    · exact ht

@[simp] theorem kept_endServedOp (a s : State) (p : Port) (tag : Byte) (k : Nat) (r : OpResult) (h : a.Kept s) :
    a.Kept (s.endServedOp p tag k r) := by
  unfold State.endServedOp
  split
  · exact kept_judgeCompletion a _ p tag (kept_setSlot a s k _ h)
  · exact kept_mismatchAct a _ (kept_mismatchRearm a s k h)
  · exact kept_judgeCompletion a _ p tag (kept_setSlot a s k _ h)

@[simp] theorem kept_endCancelledOp (a s : State) (p : Port) (tag : Byte) (k : Nat) (r : OpResult)
    (h : a.Kept s) : a.Kept (s.endCancelledOp p tag k r) := by
  unfold State.endCancelledOp
  extract_lets _ t u
  have ht : a.Kept t := by
    show a.Kept (match r with
      | .done => _
      | .mismatch => _
      | .failed c => _)
    split <;> exact kept_setSlot a s k _ h
  have hu : a.Kept u := kept_completeEntry a _ p tag _ (kept_emptySlots a t p tag ht)
  clear_value u
  split
  · exact kept_closeJudgement a _ (kept_mismatchAct a u hu)
  · exact kept_closeJudgement a u hu

@[simp] theorem kept_endDiscardedOp (a s : State) (k : Nat) (r : OpResult)
    (h : a.Kept s) : a.Kept (s.endDiscardedOp k r) := by
  unfold State.endDiscardedOp
  (repeat' (first | split | dsimp only)) <;>
    first | assumption | (simp +contextual [h]; done) | (apply kept_foldl <;> simp +contextual [h]; done)

@[simp] theorem kept_endOperation (a s : State) (r : OpResult) (h : a.Kept s) : a.Kept (s.endOperation r) := by
  unfold State.endOperation
  split
  · exact h
  · rename_i o _
    extract_lets t _ u
    have hu : a.Kept u := kept_dropGate a s h
    clear_value u
    split
    · split
      · exact kept_setSlot a u _ _ hu
      · split
        · exact kept_endDiscardedOp a u _ r hu
        · split
          · exact kept_endCancelledOp a u _ _ _ r hu
          · exact kept_endServedOp a u _ _ _ r hu
    · exact kept_endDriveOp a u _ r hu
    · exact hu

@[simp] theorem kept_failPass (a s : State) (c : Cause) (h : a.Kept s) : a.Kept (s.failPass c) := by
  unfold State.failPass
  extract_lets t _ u
  have hu : a.Kept u := kept_dropGate a s h
  exact kept_closeJudgement a _ (kept_reportDrive a u _ hu)

@[simp] theorem kept_endPass (a s : State) (h : a.Kept s) : a.Kept s.endPass := by
  unfold State.endPass
  (repeat' (first | split | dsimp only)) <;>
    first | assumption | (simp +contextual [h]; done) | (apply kept_foldl <;> simp +contextual [h]; done)

@[simp] theorem kept_recordFormatted (a s : State) (h : a.Kept s) : a.Kept s.recordFormatted := by
  unfold State.recordFormatted
  (repeat' (first | split | dsimp only)) <;>
    first | assumption | (simp +contextual [h]; done) | (apply kept_foldl <;> simp +contextual [h]; done)

@[simp] theorem kept_windowEnd (a s : State) (h : a.Kept s) : a.Kept s.windowEnd := by
  unfold State.windowEnd
  (repeat' (first | split | dsimp only)) <;>
    first | assumption | (simp +contextual [h]; done) | (apply kept_foldl <;> simp +contextual [h]; done)

@[simp] theorem kept_passAtIndex (a s : State) (h : a.Kept s) : a.Kept s.passAtIndex := by
  unfold State.passAtIndex
  (repeat' (first | split | dsimp only)) <;>
    first | assumption | (simp +contextual [h]; done) | (apply kept_foldl <;> simp +contextual [h]; done)

@[simp] theorem kept_sectorStart (a s : State) (k : Nat) (h : a.Kept s) : a.Kept (s.sectorStart k) := by
  unfold State.sectorStart
  (repeat' (first | split | dsimp only)) <;>
    first | assumption | (simp +contextual [h]; done) | (apply kept_foldl <;> simp +contextual [h]; done)

@[simp] theorem kept_sessionSpeedLoss (a s : State) (h : a.Kept s) : a.Kept s.sessionSpeedLoss := by
  unfold State.sessionSpeedLoss
  (repeat' (first | split | dsimp only)) <;>
    first | assumption | (simp +contextual [h]; done) | (apply kept_foldl <;> simp +contextual [h]; done)

@[simp] theorem kept_loadSpeedLoss (a s : State) (h : a.Kept s) : a.Kept s.loadSpeedLoss := by
  unfold State.loadSpeedLoss
  (repeat' (first | split | dsimp only)) <;>
    first | assumption | (simp +contextual [h]; done) | (apply kept_foldl <;> simp +contextual [h]; done)

@[simp] theorem kept_sessionSpindleFault (a s : State) (h : a.Kept s) : a.Kept s.sessionSpindleFault := by
  unfold State.sessionSpindleFault
  (repeat' (first | split | dsimp only)) <;>
    first | assumption | (simp +contextual [h]; done) | (apply kept_foldl <;> simp +contextual [h]; done)

@[simp] theorem kept_posSpindleFault (a s : State) (h : a.Kept s) : a.Kept s.posSpindleFault := by
  unfold State.posSpindleFault
  (repeat' (first | split | dsimp only)) <;>
    first | assumption | (simp +contextual [h]; done) | (apply kept_foldl <;> simp +contextual [h]; done)

@[simp] theorem kept_spindleFault (a s : State) (c : SpindleCause) (h : a.Kept s) : a.Kept (s.spindleFault c) := by
  unfold State.spindleFault
  extract_lets _ t u v _ _ w
  have ht : a.Kept t := kept_updSpindle a s _ (fun _ hx => hx) h
  have hu : a.Kept u := kept_postBoth a _ _ (kept_raiseFlag a t _ ht)
  have hv : a.Kept v := kept_sessionSpindleFault a u hu
  have hw : a.Kept w := by
    show a.Kept (if _ then _ else _)
    split
    · exact kept_enterBraking a v hv
    · refine kept_updSpindle a v (fun x =>
        { x with state := if x.state = .atSpeed then .locking else x.state, faultPending := true }) ?_ hv
      intro x hx
      by_cases hs : x.state = .atSpeed
      · simp only [Spindle.DutyLawful, hs, if_true] at hx ⊢
        exact hx
      · exact DutyLawful.same (if_neg hs) rfl hx
  exact kept_posSpindleFault a _ (kept_custodySpindleFault a w hw)

@[simp] theorem kept_answerRecalFailed (a s : State) (r : Option PosRequest)
    (h : a.Kept s) : a.Kept (s.answerRecalFailed r) := by
  unfold State.answerRecalFailed
  (repeat' (first | split | dsimp only)) <;>
    first | assumption | (simp +contextual [h]; done) | (apply kept_foldl <;> simp +contextual [h]; done)

@[simp] theorem kept_recalFailure (a s : State) (h : a.Kept s) : a.Kept s.recalFailure := by
  unfold State.recalFailure
  extract_lets t u v
  have ht : a.Kept t := h
  have hu : a.Kept u := kept_postBoth a _ _ (kept_raiseFlag a t _ ht)
  have hv : a.Kept v := kept_beginRetract a _ hu
  exact kept_answerRecalFailed a v _ hv

@[simp] theorem kept_answerAbandoned (a s : State) (r : Option PosRequest)
    (h : a.Kept s) : a.Kept (s.answerAbandoned r) := by
  unfold State.answerAbandoned
  (repeat' (first | split | dsimp only)) <;>
    first | assumption | (simp +contextual [h]; done) | (apply kept_foldl <;> simp +contextual [h]; done)

@[simp] theorem kept_finish (a s : State) (h : a.Kept s) : a.Kept s.finish := by
  unfold State.finish
  (repeat' (first | split | dsimp only)) <;>
    first | assumption | (simp +contextual [h]; done) | (apply kept_foldl <;> simp +contextual [h]; done)

@[simp] theorem kept_linkToIdle (a s : State) (p : Port) (h : a.Kept s) : a.Kept (s.linkToIdle p) := by
  unfold State.linkToIdle
  (repeat' (first | split | dsimp only)) <;>
    first | assumption | (simp +contextual [h]; done) | (apply kept_foldl <;> simp +contextual [h]; done)

@[simp] theorem kept_respond (a s : State) (p : Port) (code tag : Byte) (o : Outcome) (detail : List Byte)
    (h : a.Kept s) : a.Kept (s.respond p code tag o detail) := by
  unfold State.respond
  exact kept_updLink a _ p _ (kept_updCtx a s p _ (fun c hc => PortContext.noteOutcome_bounded c o hc) h)

@[simp] theorem kept_respondWith (a s : State) (p : Port) (code tag : Byte) (bytes : List Byte) (work : LinkWork)
    (h : a.Kept s) : a.Kept (s.respondWith p code tag bytes work) := by
  unfold State.respondWith
  (repeat' (first | split | dsimp only)) <;>
    first | assumption | (simp +contextual [h]; done) | (apply kept_foldl <;> simp +contextual [h]; done)

@[simp] theorem kept_beginPhase (a s : State) (p : Port) (length : Nat) (work : LinkWork)
    (h : a.Kept s) : a.Kept (s.beginPhase p length work) := by
  unfold State.beginPhase
  (repeat' (first | split | dsimp only)) <;>
    first | assumption | (simp +contextual [h]; done) | (apply kept_foldl <;> simp +contextual [h]; done)

@[simp] theorem kept_restartLimit (a s : State) (p : Port) (h : a.Kept s) : a.Kept (s.restartLimit p) := by
  unfold State.restartLimit
  (repeat' (first | split | dsimp only)) <;>
    first | assumption | (simp +contextual [h]; done) | (apply kept_foldl <;> simp +contextual [h]; done)

@[simp] theorem kept_acceptMaint (a s : State) (p : Port) (k : MaintKind) (tag : Byte) (spare : Nat)
    (h : a.Kept s) : a.Kept (s.acceptMaint p k tag spare) := by
  unfold State.acceptMaint
  (repeat' (first | split | dsimp only)) <;>
    first | assumption | (simp +contextual [h]; done) | (apply kept_foldl <;> simp +contextual [h]; done)

@[simp] theorem kept_handOnRecord (a s : State) (p : Port) (r : MediaRecord)
    (h : a.Kept s) : a.Kept (s.handOnRecord p r) := by
  unfold State.handOnRecord
  exact kept_storeBuffer a s _ _ _ h

@[simp] theorem kept_undoPhase (a s : State) (p : Port) (h : a.Kept s) : a.Kept (s.undoPhase p) := by
  unfold State.undoPhase
  (repeat' (first | split | dsimp only)) <;>
    first | assumption | (simp +contextual [h]; done) | (apply kept_foldl <;> simp +contextual [h]; done)

@[simp] theorem kept_timeOutPhase (a s : State) (p : Port) (h : a.Kept s) : a.Kept (s.timeOutPhase p) := by
  unfold State.timeOutPhase
  (repeat' (first | split | dsimp only)) <;>
    first | assumption | (simp +contextual [h]; done) | (apply kept_foldl <;> simp +contextual [h]; done)

@[simp] theorem kept_storePhase (a s : State) (bufs : List Nat) (i : Nat) (l : List Byte) (h : a.Kept s) :
    a.Kept (s.storePhase bufs i l) := by
  induction l generalizing s i with
  | nil => exact h
  | cons b rest ih => exact ih _ _ (kept_setRamByte a s _ b h)

@[simp] theorem kept_fetchDataDone (a s : State) (p : Port) (tag : Byte)
    (h : a.Kept s) : a.Kept (s.fetchDataDone p tag) := by
  unfold State.fetchDataDone
  (repeat' (first | split | dsimp only)) <;>
    first | assumption | (simp +contextual [h]; done) | (apply kept_foldl <;> simp +contextual [h]; done)

@[simp] theorem kept_completeOutbound (a s : State) (p : Port) (h : a.Kept s) : a.Kept (s.completeOutbound p) := by
  unfold State.completeOutbound
  (repeat' (first | split | dsimp only)) <;>
    first | assumption | (simp +contextual [h]; done) | (apply kept_foldl <;> simp +contextual [h]; done)

@[simp] theorem kept_endOutbound (a s : State) (p : Port) (h : a.Kept s) : a.Kept (s.endOutbound p) := by
  unfold State.endOutbound
  (repeat' (first | split | dsimp only)) <;>
    first | assumption | (simp +contextual [h]; done) | (apply kept_foldl <;> simp +contextual [h]; done)

@[simp] theorem kept_answerNotice (a s : State) (p : Port) (h : a.Kept s) : a.Kept (s.answerNotice p) := by
  unfold State.answerNotice
  (repeat' (first | split | dsimp only)) <;>
    first | assumption | (simp +contextual [h]; done) | (apply kept_foldl <;> simp +contextual [h]; done)

@[simp] theorem kept_takeReservation (a s : State) (p : Port) (m : ReserveMode) (limit : Nat)
    (h : a.Kept s) : a.Kept (s.takeReservation p m limit) := by
  unfold State.takeReservation
  (repeat' (first | split | dsimp only)) <;>
    first | assumption | (simp +contextual [h]; done) | (apply kept_foldl <;> simp +contextual [h]; done)

@[simp] theorem kept_answerFetchData (a s : State) (p : Port) (tag : Byte)
    (h : a.Kept s) : a.Kept (s.answerFetchData p tag) := by
  unfold State.answerFetchData
  (repeat' (first | split | dsimp only)) <;>
    first | assumption | (simp +contextual [h]; done) | (apply kept_foldl <;> simp +contextual [h]; done)

@[simp] theorem kept_answerCancel (a s : State) (p : Port) (tag : Byte)
    (h : a.Kept s) : a.Kept (s.answerCancel p tag) := by
  unfold State.answerCancel
  (repeat' (first | split | dsimp only)) <;>
    first | assumption | (simp +contextual [h]; done) | (apply kept_foldl <;> simp +contextual [h]; done)

@[simp] theorem kept_acceptEject (a s : State) (p : Port) (b : Block)
    (h : a.Kept s) : a.Kept (s.acceptEject p b) := by
  unfold State.acceptEject
  split
  · exact kept_newAttempt a s h
  · extract_lets t
    have ht : a.Kept t := kept_updCtx a s p _ (fun _ hc => hc) h
    clear_value t
    split
    · exact kept_enterUnmounting a _ (kept_updCustody a t _ (fun _ => rfl) ht)
    · exact kept_enterEjectPending a t _ ht

@[simp] theorem kept_acceptMapSpare (a s : State) (p : Port) (b : Block)
    (h : a.Kept s) : a.Kept (s.acceptMapSpare p b) := by
  unfold State.acceptMapSpare
  (repeat' (first | split | dsimp only)) <;>
    first | assumption | (simp +contextual [h]; done) | (apply kept_foldl <;> simp +contextual [h]; done)

@[simp] theorem kept_takeByte (a s : State) (p : Port) (b : Byte) (h : a.Kept s) : a.Kept (s.takeByte p b) := by
  unfold State.takeByte
  generalize s.link p = l
  dsimp only
  split
  · exact kept_updLink a s p _ h
  · split
    · exact kept_updLink a s p _ h
    · exact h
  · split
    · refine kept_updLink a _ p _ ?_
      split
      · split
        · exact kept_storePhase a s _ _ _ h
        · exact h
      · exact kept_updLink a s p _ h
    · exact h
  · exact kept_updLink a s p _ h
  · exact kept_updLink a s p _ h

@[simp] theorem kept_judgeReceived (a s : State) (p : Port) (tag : Byte) (e : Entry)
    (h : a.Kept s) : a.Kept (s.judgeReceived p tag e) := by
  unfold State.judgeReceived
  (repeat' (first | split | dsimp only)) <;>
    first | assumption | (simp +contextual [h]; done) | (apply kept_foldl <;> simp +contextual [h]; done)

@[simp] theorem kept_endWritePhase (a s : State) (p : Port) (tag : Byte) (bytes : List Byte)
    (h : a.Kept s) : a.Kept (s.endWritePhase p tag bytes) := by
  unfold State.endWritePhase
  split
  · exact kept_respond a s _ _ _ _ _ h
  · exact kept_respond a _ _ _ _ _ _ (kept_judgeReceived a _ p tag _ (kept_storePhase a s _ _ _ h))

@[simp] theorem kept_endRecordPhase (a s : State) (p : Port) (tag : Byte) (all : List Byte)
    (h : a.Kept s) : a.Kept (s.endRecordPhase p tag all) := by
  unfold State.endRecordPhase
  (repeat' (first | split | dsimp only)) <;>
    first | assumption | (simp +contextual [h]; done) | (apply kept_foldl <;> simp +contextual [h]; done)

@[simp] theorem kept_indexWindowEnd (a s : State) (h : a.Kept s) : a.Kept s.indexWindowEnd := by
  unfold State.indexWindowEnd
  (repeat' (first | split | dsimp only)) <;>
    first | assumption | (simp +contextual [h]; done) | (apply kept_foldl <;> simp +contextual [h]; done)

@[simp] theorem kept_motionEnd (a s : State) (f : Profile) (sensor : TrackZeroReading)
    (h : a.Kept s) : a.Kept (s.motionEnd f sensor) := by
  unfold State.motionEnd
  (repeat' (first | split | dsimp only)) <;>
    first | assumption | (simp +contextual [h]; done) | (apply kept_foldl <;> simp +contextual [h]; done)

@[simp] theorem kept_stepOn (a s : State) (f : Profile) (sensor : TrackZeroReading)
    (h : a.Kept s) : a.Kept (s.stepOn f sensor) := by
  unfold State.stepOn
  (repeat' (first | split | dsimp only)) <;>
    first | assumption | (simp +contextual [h]; done) | (apply kept_foldl <;> simp +contextual [h]; done)

@[simp] theorem kept_creepOn (a s : State) (f : Profile) (sensor : TrackZeroReading)
    (h : a.Kept s) : a.Kept (s.creepOn f sensor) := by
  unfold State.creepOn
  (repeat' (first | split | dsimp only)) <;>
    first | assumption | (simp +contextual [h]; done) | (apply kept_foldl <;> simp +contextual [h]; done)

@[simp] theorem kept_enterOnTrack (a s : State) (h : a.Kept s) : a.Kept s.enterOnTrack := by
  unfold State.enterOnTrack
  (repeat' (first | split | dsimp only)) <;>
    first | assumption | (simp +contextual [h]; done) | (apply kept_foldl <;> simp +contextual [h]; done)

@[simp] theorem kept_settleEnd (a s : State) (h : a.Kept s) : a.Kept s.settleEnd := by
  unfold State.settleEnd
  (repeat' (first | split | dsimp only)) <;>
    first | assumption | (simp +contextual [h]; done) | (apply kept_foldl <;> simp +contextual [h]; done)

@[simp] theorem kept_endReading (a s : State) (o : Operation) (d : DataReading)
    (h : a.Kept s) : a.Kept (s.endReading o d) := by
  unfold State.endReading
  (repeat' (first | split | dsimp only)) <;>
    first | assumption | (simp +contextual [h]; done) | (apply kept_foldl <;> simp +contextual [h]; done)

@[simp] theorem kept_endWriting (a s : State) (o : Operation) (h : a.Kept s) : a.Kept (s.endWriting o) := by
  unfold State.endWriting
  (repeat' (first | split | dsimp only)) <;>
    first | assumption | (simp +contextual [h]; done) | (apply kept_foldl <;> simp +contextual [h]; done)

@[simp] theorem kept_endByResult (a s : State) (o : Operation) (hr : HeaderReading) (d : DataReading)
    (h : a.Kept s) : a.Kept (s.endByResult o hr d) := by
  unfold State.endByResult
  split
  · exact kept_endOperation a s _ h
  · exact kept_endOperation a s _ h
  · split
    · exact kept_endWriting a s o h
    · exact kept_endReading a s o d h

@[simp] theorem kept_newSession (a s : State) (track head : Nat) (owner : OwnerKind)
    (h : a.Kept s) : a.Kept (s.newSession track head owner) := by
  unfold State.newSession
  (repeat' (first | split | dsimp only)) <;>
    first | assumption | (simp +contextual [h]; done) | (apply kept_foldl <;> simp +contextual [h]; done)

@[simp] theorem kept_positionSession (a s : State) (track : Nat)
    (h : a.Kept s) : a.Kept (s.positionSession track) := by
  unfold State.positionSession
  (repeat' (first | split | dsimp only)) <;>
    first | assumption | (simp +contextual [h]; done) | (apply kept_foldl <;> simp +contextual [h]; done)

@[simp] theorem kept_openDrive (a s : State) (r : DriveRequest) (h : a.Kept s) : a.Kept (s.openDrive r) := by
  unfold State.openDrive
  (repeat' (first | split | dsimp only)) <;>
    first | assumption | (simp +contextual [h]; done) | (apply kept_foldl <;> simp +contextual [h]; done)

@[simp] theorem kept_openStation (a s : State) (p : Port) (e : Entry)
    (h : a.Kept s) : a.Kept (s.openStation p e) := by
  unfold State.openStation
  extract_lets track _ t
  have ht : a.Kept t := kept_newSession a s (translate s.copy e.track) e.head .station h
  exact kept_positionSession a _ track (kept_takeIn a t p _ track ht)

@[simp] theorem kept_choose (a s : State) (h : a.Kept s) : a.Kept s.choose := by
  unfold State.choose
  (repeat' (first | split | dsimp only)) <;>
    first | assumption | (simp +contextual [h]; done) | (apply kept_foldl <;> simp +contextual [h]; done)

@[simp] theorem kept_withdrawn (a s : State) (h : a.Kept s) : a.Kept s.withdrawn := by
  unfold State.withdrawn
  extract_lets t
  have ht : a.Kept t := kept_medium_nil a s h
  exact kept_clearLocks a _ (kept_updCustody a t _ (fun _ => rfl) ht)

@[simp] theorem kept_latchConfirmed (a s : State) (writeProtect : Bool)
    (h : a.Kept s) : a.Kept (s.latchConfirmed writeProtect) := by
  unfold State.latchConfirmed
  (repeat' (first | split | dsimp only)) <;>
    first | assumption | (simp +contextual [h]; done) | (apply kept_foldl <;> simp +contextual [h]; done)

@[simp] theorem kept_enterJammed (a s : State) (h : a.Kept s) : a.Kept s.enterJammed := by
  unfold State.enterJammed
  (repeat' (first | split | dsimp only)) <;>
    first | assumption | (simp +contextual [h]; done) | (apply kept_foldl <;> simp +contextual [h]; done)

@[simp] theorem kept_beginEmergency (a s : State) (distance : Nat)
    (h : a.Kept s) : a.Kept (s.beginEmergency distance) := by
  unfold State.beginEmergency
  (repeat' (first | split | dsimp only)) <;>
    first | assumption | (simp +contextual [h]; done) | (apply kept_foldl <;> simp +contextual [h]; done)

@[simp] theorem kept_posSupplyEdge (a s : State) (h : a.Kept s) : a.Kept s.posSupplyEdge := by
  unfold State.posSupplyEdge
  (repeat' (first | split | dsimp only)) <;>
    first | assumption | (simp +contextual [h]; done) | (apply kept_foldl <;> simp +contextual [h]; done)

@[simp] theorem kept_failReady (a s : State) (p : Port) (h : a.Kept s) : a.Kept (s.failReady p) := by
  unfold State.failReady
  (repeat' (first | split | dsimp only)) <;>
    first | assumption | (simp +contextual [h]; done) | (apply kept_foldl <;> simp +contextual [h]; done)

@[simp] theorem kept_edgeEndsPhase (a s : State) (p : Port) (h : a.Kept s) : a.Kept (s.edgeEndsPhase p) := by
  unfold State.edgeEndsPhase
  (repeat' (first | split | dsimp only)) <;>
    first | assumption | (simp +contextual [h]; done) | (apply kept_foldl <;> simp +contextual [h]; done)

@[simp] theorem kept_resetCustody (a s : State) (r : ResetReading) (h : a.Kept s) : a.Kept (s.resetCustody r) := by
  unfold State.resetCustody
  (repeat' (first | split | dsimp only)) <;>
    first | assumption | (simp +contextual [h]; done) | (apply kept_foldl <;> simp +contextual [h]; done)

@[simp] theorem kept_resetEntry (a s : State) (p : Port) (e : Entry) (h : a.Kept s) : a.Kept (s.resetEntry p e) := by
  unfold State.resetEntry
  (repeat' (first | split | dsimp only)) <;>
    first | assumption | (simp +contextual [h]; done) | (apply kept_foldl <;> simp +contextual [h]; done)

@[simp] theorem kept_resetQueue (a s : State) (p : Port) (h : a.Kept s) : a.Kept (s.resetQueue p) := by
  unfold State.resetQueue
  (repeat' (first | split | dsimp only)) <;>
    first | assumption | (simp +contextual [h]; done) | (apply kept_foldl <;> simp +contextual [h]; done)

@[simp] theorem kept_portReset (a s : State) (p : Port) (h : a.Kept s) : a.Kept (s.portReset p) := by
  unfold State.portReset
  extract_lets t u v
  have ht : a.Kept t := kept_resetQueue a s p h
  have hu : a.Kept u := kept_updCtx a t p _ (fun _ hc => ⟨Nat.zero_le _, hc.2.1, hc.2.2.1, .nil⟩) ht
  have hv : a.Kept v := kept_freeIfHeldBy a u p hu
  clear_value v
  split
  · exact kept_closeJudgement a v hv
  · exact hv

end Sys2Proof.Machine
end

