-- ==== Sys2Proof/Tests/Slice0.lean ====
section
/-! SUPPORT. Tests: the operand checks, the spec's worked examples, one step on small states, and for every statement
with hypotheses a state and operands that meet them. Expected values come from the section each test names. -/

namespace Sys2Proof.Tests

open Sys2Proof.Machine

/-! ### Small states -/

/-- The step goes on. -/
def goesOn : Host.Outcome State Fault Refusal → Bool
  | .next _ => true
  | _ => false

/-- What a next state satisfies. -/
def after (o : Host.Outcome State Fault Refusal) (f : State → Bool) : Bool :=
  match o with
  | .next s => f s
  | _ => false

/-- The gaps of a sector that holds no recording. -/
def noGaps : Gaps := ⟨.blank, .blank, .blank⟩

/-- A command that is refused as ill formed. -/
def refusedIllFormed (i : Instr) : Bool :=
  match exec i State.reset with
  | .refused .illFormed => true
  | _ => false

theorem exists_next (o : Host.Outcome State Fault Refusal) (h : goesOn o = true) : ∃ t, o = .next t := by
  cases o with
  | next t => exact ⟨t, rfl⟩
  | fault r => cases h
  | refused r => cases h

/-- The spare table of 1.7: entry 0 RETIRED for 37, entries 1 to 3 MAPPED to 37, 412 and 599. -/
def record : MediaRecord where
  serial := [1, 2, 3, 4]
  label := List.replicate 16 0x41
  writeCount := 65535
  spares := [⟨.retired, 37⟩, ⟨.mapped, 37⟩, ⟨.mapped, 412⟩, ⟨.mapped, 599⟩] ++ List.replicate 12 ⟨.free, 0⟩

/-- A spindle in a state with a duty, an index event at 0 with the period 20,000 behind it. -/
def turning (st : SpindleState) (duty : Nat) : Spindle :=
  { Spindle.reset with state := st, duty := duty, lastIndex := some 0, period := some 20000 }

/-- A cartridge in the drive in a custody state, generation 1, WRITABLE, known to both stations. -/
def held (st : CustodyState) : State :=
  { State.reset with
    pins := ⟨true, true, false, true, false⟩
    custody := { Custody.reset with state := st, generation := 1, protect := some .writable, latched := true }
    portA := { PortContext.reset true with acknowledged := 1 }
    portB := { PortContext.reset true with acknowledged := 1 }
    copy := if st = .blank then none else some record
    spindle := turning .atSpeed 164
    pos := { Positioner.reset with state := .onTrack, counter := 0 }
    carriage := 0 }

/-- MOUNTED, AT_SPEED, ON_TRACK at position 0. -/
def ready : State := held .mounted

/-- Port A in EXCLUSIVE reservation. -/
def exclusive (s : State) : State := { s with reservation := some ⟨.a, .exclusive, 0, none⟩ }

/-- Seven bytes of a block. -/
def blk (tag b2 b3 b4 b5 b6 b7 : Byte) : Block := ⟨tag, b2, b3, b4, b5, b6, b7⟩

/-- Tag 7, track 37, head 1, sector 5, two sectors, retry limit 3. -/
def xfer : Block := blk 7 0 37 1 5 2 3

/-- An entry of tag 7 for `xfer` in a state. -/
def entryIn (op : XferOp) (st : EntryState) : Entry :=
  ⟨7, op, 37, 1, .absolute 5, 2, 3, [0, 1], 1, st, none, none, false, false, none, none, none, false⟩

/-- The entry in port A's queue, its two buffers taken. -/
def withEntry (s : State) (e : Entry) : State :=
  { s.updCtx .a (fun c => { c with queue := [e] }) with
    pool := [some .a, some .a] ++ List.replicate 14 none }

/-- Port A's link in a state of its own. -/
def withLink (s : State) (l : Link) : State := s.updLink .a fun _ => l

/-- A SERVING session at position 602, head 1. -/
def serving : Session := ⟨602, 1, .station, .serving, false, false, 0, 0, false, false, false⟩

/-- A slot of the entry with tag 7. -/
def slotIn (st : SlotState) (retries : Nat) : Slot := ⟨st, some (.port .a), some 7, retries, none⟩

/-- The entry IN_SESSION at position 602 in sectors 5 and 6, slot 5 in `st` with `retries`, slot 6 ARMED. -/
def inSession (op : XferOp) (st : SlotState) (retries : Nat) : State :=
  { withEntry ready { entryIn op .inSession with position := some 602, resolved := some 5 } with
    session := some serving
    pos := { Positioner.reset with state := .onTrack, counter := 602 }
    carriage := 602
    slots := (((List.replicate 20 Slot.blank).set 5 (slotIn st retries)).set 6 (slotIn .armed 3))
    seq := ⟨some 5, none, false, none⟩ }

/-- The operation of sector 5 in flight, a write or a read, `gate` on or off, drive time at its 950 microsecond point. -/
def operating (op : XferOp) (kind : OpKind) (matched recorded gate : Bool) : State :=
  { inSession op .active 3 with
    time := 950
    seq := ⟨some 5, some ⟨5, kind, 0, 0, matched, recorded⟩, gate, none⟩ }

/-! ### The operand checks (log 2) -/

theorem test_known_code_is_no_unknown_command : refusedIllFormed (.unknownCommand .a 0x18 xfer) = true := by
  decide +kernel

theorem test_sector_starts_are_1_to_19 :
    refusedIllFormed (.sectorStartEvent 0) = true ∧ refusedIllFormed (.sectorStartEvent 20) = true := by decide +kernel

theorem test_header_has_seven_bytes :
    refusedIllFormed (.operationEndPoint (.found [0, 1, 2]) .asRecorded) = true ∧
    refusedIllFormed (.dataFieldReached (.found [0, 1, 2])) = true := by decide +kernel

theorem test_data_field_has_514_bytes :
    refusedIllFormed (.operationEndPoint .asRecorded (.received [0])) = true := by decide +kernel

theorem test_cartridge_stands_in_order :
    refusedIllFormed (.presentSensorActive [(2, ⟨.cut 0, .blank, noGaps⟩), (1, ⟨.cut 0, .blank, noGaps⟩)]) = true ∧
    refusedIllFormed (.presentSensorActive [(617 * 2 * 20, ⟨.cut 0, .blank, noGaps⟩)]) = true ∧
    refusedIllFormed (.presentSensorActive [(0, ⟨.recorded [1], .blank, noGaps⟩)]) = true ∧
    refusedIllFormed (.presentSensorActive [(0, ⟨.blank, .recorded [1], noGaps⟩)]) = true ∧
    refusedIllFormed (.presentSensorActive [(0, ⟨.blank, .blank, noGaps⟩)]) = true := by decide +kernel

theorem test_phases_have_bytes :
    refusedIllFormed (.writeDataPhaseComplete .a []) = true ∧
    refusedIllFormed (.writeDataPhaseComplete .a (List.replicate 4097 0)) = true ∧
    refusedIllFormed (.mediaRecordPhaseComplete .a (List.replicate 21 0)) = true ∧
    refusedIllFormed (.parameterPhaseComplete .a (List.replicate 41 0)) = true := by decide +kernel

/-! ### The spec's worked examples -/

/-- 1.7, Translation through a spare table. -/
theorem test_translation_example :
    [0, 36, 37, 38, 412, 598, 599].map (translate (some record)) = [1, 37, 602, 39, 603, 599, 604] := by decide +kernel

/-- 1.7: MAP SPARE of 412 maps entry 4 and retires entry 2. -/
theorem test_map_spare_example :
    lowestFree record = some 4 ∧ (mapSpareRecord record 4 412).spares.take 5 =
      [⟨.retired, 37⟩, ⟨.mapped, 37⟩, ⟨.retired, 412⟩, ⟨.mapped, 599⟩, ⟨.mapped, 412⟩] := by decide +kernel

/-- 1.7, Validation outcomes: two entries MAPPED to one track, and one MAPPED with one RETIRED. -/
theorem test_validation_of_spares :
    mappedOnce record.spares = true ∧
    mappedOnce ((record.spares.set 6 ⟨.mapped, 200⟩).set 9 ⟨.mapped, 200⟩) = false ∧
    mappedOnce ((record.spares.set 6 ⟨.mapped, 200⟩).set 9 ⟨.retired, 200⟩) = true := by decide +kernel

/-- 13.6: where a record's fields stand among its bytes, and how a spare entry reads back. -/
theorem test_record_layout :
    (record.body.take 7 = [0x5A, 0x3C, 1, 1, 2, 3, 4]) ∧ (record.body.drop 23).take 5 = [0x02, 0x58, 20, 0xFF, 0xFF] ∧
    (record.body.drop 28).take 6 = [2, 0, 37, 1, 0, 37] ∧ spareAt record.body 2 = ⟨.mapped, 412⟩ ∧
    record.body.length = 510 := by decide +kernel

/-- 1.7, Judging headers at a spared position. -/
theorem test_headers_at_a_spared_position :
    judgeHeader 602 1 5 (some (headerBytes 602 1 5)) = .matching ∧
    judgeHeader 602 1 5 (some (headerBytes 38 1 5)) = .trackMismatch ∧
    judgeHeader 602 1 5 (some (headerBytes 602 0 5)) = .failed .headMismatch ∧
    judgeHeader 602 1 5 none = .failed .noHeader ∧
    judgeHeader 602 1 5 (some ([0x02, 0x5A, 1, 5, 0x83] ++ crcBytes [0x02, 0x5A, 1, 5, 0x83])) = .matching ∧
    judgeHeader 602 1 5 (some ((headerBytes 38 1 5).set 6 0)) = .failed .headerCheck := by decide +kernel

/-- 2.12: E, C and the duty of the spin-up, and the clamp at a period of 21,000. -/
theorem test_duty_example :
    nextDuty 150 20390 = 162 ∧ nextDuty 162 20100 = 165 ∧ nextDuty 165 19950 = 164 ∧ nextDuty 164 20020 = 164 ∧
    nextDuty 164 19990 = 164 ∧ nextDuty 150 21000 = 162 ∧ nextDuty 164 20150 = 168 ∧ nextDuty 168 20250 = 175 ∧
    nextDuty 184 19960 = 183 := by decide +kernel

/-- 2.12, Sector starts across the wrap of drive time: sector 8 is due at drive time 720 and not before. -/
theorem test_sector_start_across_the_wrap :
    sectorOffset 7 20040 = 7014 ∧ sectorOffset 8 20040 = 8016 ∧ sectorOffset 19 20040 = 19038 ∧
    (let s (now : Time) : State := { ready with
      time := now
      spindle := { ready.spindle with lastIndex := some 4294960000, period := some 20040 }
      seq := ⟨some 7, none, false, none⟩ }
     (s 719).startDue 8 = false ∧ (s 720).startDue 8 = true) := by decide +kernel

/-- The motion time of a move of D steps with a table. -/
def motion (table : List Nat) (d : Nat) : Nat :=
  ((List.range d).map fun i => (⟨.seek, .inward, d, 0, table, 15000⟩ : Profile).interval (i + 1)).sum

/-- 3.6: the motion times for D = 1, 5, 12, 16, 20 and 640. -/
theorem test_ramp_examples :
    [1, 5, 12, 16, 20, 640].map (motion (Params.default.intervals.take 8)) =
      [5000, 19700, 34000, 40000, 45800, 944800] := by decide +kernel

/-- The parameter block of the defaults with a minimum interval, N and I[1] written. -/
def written (lo n i1 : Nat) : List Byte :=
  { Params.default with minInterval := lo, entries := n, intervals := Params.default.intervals.set 0 i1 }.bytes

/-- 3.6, A conditioned table: minimum 1,600; N = 3; I[1] of 30,000; I[1] of 100 with minimum 500. -/
theorem test_conditioning_examples :
    (paramsOf (written 1600 8 5000)).intervals =
      [5000, 3500, 2700, 2200, 1900, 1700] ++ List.replicate 10 1600 ∧
    motion ((paramsOf (written 1600 8 5000)).intervals.take 8) 20 = 46800 ∧
    motion ((paramsOf (written 1600 3 5000)).intervals.take 3) 20 = 60200 ∧
    (paramsOf (written 1400 8 30000)).intervals.getD 0 0 = 20000 ∧
    (paramsOf (written 500 8 100)).intervals = List.replicate 16 500 := by decide +kernel

/-- 5.3, Arming at the lead boundary. -/
theorem test_arming_example :
    [0, 1, 2, 3].map (armedState 2 18) = [.armed, .armed, .armed, .armed] ∧
    armedState 2 19 0 = .deferred ∧ armedState 2 19 1 = .armed := by decide +kernel

/-- 13.1, 13.3, R167: TRANSFER_DONE of a request that failed TORN at its third sector, sector 7 of first sector 5. -/
theorem test_notice_bytes :
    (Notice.bytes ⟨.transferDone (.failed (some 7) .torn) (some 5), 0x01020304, 9, some 0x41⟩).drop 1 =
      [1, 2, 3, 4, 9, 0x41, 5 + 32 * 2] := by decide +kernel

/-- 11.4: the eighth response byte taken with a strobe pending opens the next block. -/
theorem test_pending_strobe_opens_a_block :
    after (exec (.responseComplete .a) (withLink ready
      ⟨.responseOut, 7, 8, some ⟨0, 100000⟩, [], [], [], .plain, some 0x18⟩)) (fun t =>
        decide (t.portA.link = ⟨.receivingBlock, 1, 8, some ⟨0, 100000⟩, [0x18], [], [], .plain, none⟩)) = true := by
  decide +kernel

/-- R155, R156: a port reset returns the link to IDLE, where a strobe left pending opens a block. -/
theorem test_pending_strobe_after_a_port_reset :
    after (exec (.portReset .a) (withLink ready ⟨.responseOut, 3, 8, some ⟨0, 100000⟩, [], [], [], .plain, some 0x18⟩))
      (fun t => decide (t.portA.link = ⟨.receivingBlock, 1, 8, some ⟨0, 100000⟩, [0x18], [], [], .plain, none⟩)) = true := by
  decide +kernel

/-- R5, R82: a power-on reset with the gate on leaves the field that was being written torn. -/
theorem test_power_on_reset_tears_the_field :
    after (exec (.powerOnReset ⟨true, true, false, true, true, true, false⟩) (operating .write .write true false true))
      (fun t => decide (t.medium = [((602 * 2 + 1) * 20 + 5, ⟨.blank, .torn 0, noGaps⟩)])) = true := by decide +kernel

/-! ### Witnesses: states and operands that meet a statement's hypotheses, clause by clause -/

theorem freeFor_none (s : State) (p : Port) (h : s.reservation = none) : s.FreeFor p := fun r hr => by
  rw [h] at hr; cases hr

theorem openTo_none (s : State) (p : Port) (h : s.reservation = none) : s.OpenTo p := fun r hr => by
  rw [h] at hr; cases hr

theorem freeFor_holder (s : State) : (exclusive s).FreeFor .a := fun r hr => by cases hr; rfl

theorem not_freeFor (s : State) : ¬ (exclusive s).FreeFor .b := fun h => by cases h _ rfl

theorem not_openTo (s : State) : ¬ (exclusive s).OpenTo .b := fun h => by cases h _ rfl <;> contradiction

/-- A state with the supply LOW. -/
def low (s : State) : State := { s with supply := ⟨.low, none⟩ }

/-- The bytes of a received field whose check is bad, one whose formatted flag is clear, and one with other bits of its
flags set. -/
def badHeader : List Byte := (headerBytes 602 1 5).set 6 0
def flaggedHeader : List Byte := [0x02, 0x5A, 1, 5, 0x83] ++ crcBytes [0x02, 0x5A, 1, 5, 0x83]
def clearHeader : List Byte := [0x02, 0x5A, 1, 5, 0] ++ crcBytes [0x02, 0x5A, 1, 5, 0]

theorem witness_StepRunsFrontCommand :
    ({ ready with pending := [.buttonDown] } : State).pending = .buttonDown :: [] := rfl

theorem witness_IdleStepTakesWhatIsDue :
    State.reset.pending = [] ∧ State.reset.due = none ∧
    ({ held .inserted with time := 500000, spindle := .reset, pos := .reset, custody :=
      { Custody.reset with state := .inserted, debounceTimer := some ⟨0, 500000⟩ } } : State).due =
        some .debounceTimerExpiry := by decide +kernel

theorem witness_StepKeepsStructure :
    (inSession .write .active 3).Sound ∧ ∃ t, step (inSession .write .active 3) = .next t := by
  refine ⟨⟨⟨by decide +kernel, by decide +kernel⟩, ⟨by decide +kernel, by decide +kernel, by decide +kernel, .nil⟩,
    ⟨by decide +kernel, by decide +kernel, by decide +kernel, .nil⟩, ⟨by decide +kernel, by decide +kernel⟩,
    ⟨by decide +kernel, by decide +kernel⟩⟩, exists_next _ (by decide +kernel)⟩

theorem witness_StepKeepsGateLaw :
    (operating .write .write true false true).GateLawful ∧ (operating .write .write true false true).seq.gate = true ∧
    ∃ t, step (operating .write .write true false true) = .next t :=
  ⟨fun _ => by decide +kernel, rfl, exists_next _ (by decide +kernel)⟩

theorem witness_StepKeepsDutyLaw : ready.spindle.DutyLawful ∧ ∃ t, step ready = .next t :=
  ⟨⟨by decide, by decide⟩, exists_next _ (by decide +kernel)⟩

theorem witness_OnlyResetSetsDriveTime :
    (∃ t, exec .buttonDown ready = .next t) ∧ (∀ r, Instr.buttonDown ≠ .powerOnReset r) ∧
    ∃ t, exec (.powerOnReset ⟨false, false, false, true, true, true, false⟩) ready = .next t :=
  ⟨exists_next _ (by decide +kernel), nofun, exists_next _ (by decide +kernel)⟩

theorem witness_ParametersChangeAtTwoCommands :
    (∃ t, exec (.indexEvent .reportFirst) ready = .next t) ∧ (∀ r, Instr.indexEvent .reportFirst ≠ .powerOnReset r) ∧
    ∀ p bytes, Instr.indexEvent .reportFirst ≠ .parameterPhaseComplete p bytes :=
  ⟨exists_next _ (by decide +kernel), nofun, nofun⟩

/-- A PROTECTED cartridge with a WRITE in its queue. -/
def protectedMedium : State :=
  { ready with custody := { ready.custody with protect := some .isProtected } }

theorem witness_ProtectedCartridgeIsNeverWritten :
    protectedMedium.GateLawful ∧ protectedMedium.custody.protect ≠ some .writable ∧
    (∃ t, exec (.indexEvent .windowFirst) protectedMedium = .next t) ∧
    (∀ m, Instr.indexEvent .windowFirst ≠ .presentSensorActive m) ∧
    Instr.indexEvent .windowFirst ≠ .presentSensorInactive ∧ ∀ r, Instr.indexEvent .windowFirst ≠ .powerOnReset r :=
  ⟨by unfold State.GateLawful; decide +kernel, by decide +kernel, exists_next _ (by decide +kernel), nofun, nofun, nofun⟩

theorem witness_CommandLeavesTheOtherStation :
    commandBlock (.read .a xfer) = some (.a, xfer) ∧ ∃ t, exec (.read .a xfer) ready = .next t :=
  ⟨rfl, exists_next _ (by decide +kernel)⟩

theorem witness_BlocksRoundTrip :
    commandBlock (.unknownCommand .b 0xFF xfer) = some (.b, xfer) ∧ (Instr.unknownCommand .b 0xFF xfer).wf = true ∧
    (∀ q b r', Instr.unknownCommand .b 0xFF xfer = .status q b r' → r' = ⟨true, false⟩) ∧
    (blockBytes 0x18 xfer).length = 8 := ⟨rfl, by decide +kernel, nofun, rfl⟩

theorem witness_CheckCodeOfEveryField :
    0 < 16 ∧ 15 < 16 ∧ (List.replicate 512 (0xFF : Byte)).length = 512 ∧
    record.serial.length = 4 ∧ record.label.length = 16 ∧ record.spares.length = 16 := by decide +kernel

theorem witness_HeaderJudgedInOrder :
    badHeader.length = 7 ∧ checkGood (badHeader.take 5) (badHeader.drop 5) = false ∧
    clearHeader.length = 7 ∧ checkGood (clearHeader.take 5) (clearHeader.drop 5) = true ∧
    (clearHeader.getD 4 0).getLsbD 0 = false ∧ 65535 < 65536 ∧ 255 < 256 ∧
    flaggedHeader.length = 7 ∧ checkGood (flaggedHeader.take 5) (flaggedHeader.drop 5) = true ∧
    (flaggedHeader.getD 4 0).getLsbD 0 = true := by decide +kernel

theorem witness_MediaRecordRoundTrip :
    record.serial.length = 4 ∧ record.label.length = 16 ∧ record.spares.length = 16 ∧ record.writeCount < 65536 ∧
    (∀ e ∈ record.spares, e.track < 65536) ∧ (∀ e ∈ record.spares, e.state = .free → e.track = 0) ∧
    record.bytes.length = 512 := by decide +kernel

theorem witness_TranslationOfTracks :
    record.spares[1]? = some ⟨.mapped, 37⟩ ∧
    (∀ j f, j < 1 → record.spares[j]? = some f → f.state = .mapped → f.track ≠ 37) ∧
    (∀ e ∈ record.spares, e.state = .mapped → e.track ≠ 36) ∧ 599 < 600 ∧
    ∀ r, some record = some r → r.spares.length ≤ 16 := by
  refine ⟨rfl, ?_, by decide +kernel, by decide, ?_⟩
  · intro j f hj hf hm
    obtain rfl : j = 0 := by omega
    cases hf
    cases hm
  · intro r h
    cases h
    decide

/-- A port A link whose inbound phase of `n` bytes has its last byte to come. -/
def lastByteOf (n : Nat) (w : LinkWork) : Link := ⟨.dataIn, n - 1, n, some ⟨0, 100000⟩, List.replicate (n - 1) 1, [], [], w, none⟩

theorem witness_WrittenParametersAreConditioned :
    0 < 15 ∧ 14 < 15 ∧ (∃ t, exec (.powerOnReset ⟨true, true, false, false, true, true, false⟩) ready = .next t) ∧
    ready.delivers .a 0x31 xfer = true ∧ ready.supply.state = .high ∧
    (let s := withLink ready (lastByteOf 40 .parameters)
     (s.ctx .a).linkPresent = true ∧ (s.link .a).state = .dataIn ∧ (s.link .a).work = .parameters ∧
      (s.link .a).counter + 1 = (s.link .a).expected) ∧
    ∃ t, exec (.portReset .a) ready = .next t :=
  ⟨by decide, by decide, exists_next _ (by decide +kernel), by decide +kernel, by decide +kernel, by decide +kernel,
    exists_next _ (by decide +kernel)⟩

/-- `ready` with its idle timer and idle count, the standby flag and the limit. -/
def idling (timer : Option Timer) (count : Nat) (flag : Bool) : State :=
  { ready with spindle := { ready.spindle with idleTimer := timer, idleCount := count, standbyFlag := flag } }

theorem witness_IdleJudgementAndGateDrop :
    (held .mounting).idleConditions = false ∧
    (idling none 0 false).idleConditions = true ∧ (idling (some ⟨0, 1000000⟩) 299 false).idleConditions = true ∧
    299 < 10 * ready.params.standbyLimit ∧ (idling (some ⟨0, 1000000⟩) 300 false).idleConditions = true ∧
    10 * ready.params.standbyLimit ≤ 300 ∧ ready.params.standbyLimit ≠ 0 ∧
    (idling none 0 true).idleConditions = true ∧ ready.seq.gate = false ∧
    (operating .write .write true false true).finish.seq.gate = true := by decide +kernel

/-- A write in flight with the gate on, its field recorded whole or not; and the gate on with another sequencer. -/
def gateOn (recorded : Bool) : State := operating .write .write true recorded true
def gateWith (q : Sequencer) : State := { low (gateOn false) with seq := q }

theorem witness_IdleJudgementAndGateDrop_lawful_gate_and_standby :
    (gateOn false).seq.gate = true ∧ (gateOn false).gateLaw = true ∧ (gateOn false).writeServed = true ∧
    (idling none 0 true).pos.state = .onTrack ∧
    ({ idling none 0 true with pos := Positioner.reset } : State).idleConditions = true ∧
    Positioner.reset.state = .unloaded := by decide +kernel

theorem witness_IdleJudgementAndGateDrop_gate_drops :
    ([low (gateOn false), low (gateOn true), gateWith ⟨some 5, none, true, some ⟨0⟩⟩,
      gateWith ⟨none, none, true, some ⟨0⟩⟩, gateWith ⟨some 5, none, true, none⟩].all fun s =>
        s.seq.gate && s.supply.state != .high) = true ∧
    (low (gateOn false)).seq.op = some ⟨5, .write, 0, 0, true, false⟩ ∧
    (low (gateOn true)).seq.op = some ⟨5, .write, 0, 0, true, true⟩ := by decide +kernel

/-- `ready` with a spindle in a state. -/
def spun (st : SpindleState) : State := { ready with spindle := { turning st 0 with lastIndex := none } }

theorem witness_SpinRequestByState :
    (low ready).supply.state ≠ .high ∧ ready.supply.state = .high ∧ (spun .stopped).spindle.state = .stopped ∧
    (spun .coasting).spindle.state = .coasting ∧ (spun .braking).spindle.state = .braking ∧
    ready.spindle.state = .atSpeed ∧ ready.spindle.faultPending = false ∧ ready.spindle.standbyStop = false ∧
    ({ ready.spindle with standbyStop := true } : Spindle).standbyStop = true := by decide +kernel

theorem witness_BlocksAreDelivered :
    commandBlock (.read .a xfer) = some (.a, xfer) ∧ commandCode (.read .a xfer) = some 0x18 ∧
    (Instr.read .a xfer).wf = true ∧
    (withLink ready ⟨.dataOut, 0, 8, none, [], [], [], .plain, none⟩).delivers .a 0x18 xfer = false ∧
    (withLink ready ⟨.receivingBlock, 7, 8, none, (blockBytes 0x18 xfer).take 7, [], [], .plain, none⟩).delivers .a 0x18
      xfer = true ∧
    (exclusive ready).reservation = some ⟨.a, .exclusive, 0, none⟩ ∧
    ∀ r, (exclusive ready).reservation = some r → r.holder ≠ .b :=
  ⟨rfl, rfl, rfl, by decide +kernel, by decide +kernel, rfl, fun r h => by cases h; decide⟩

theorem witness_UnknownCodeIsRefused : (0x00 : Byte) ∉ commandCodes ∧ (0xFF : Byte) ∉ commandCodes ∧
    ready.delivers .a 0x00 xfer = true ∧ ready.delivers .a 0xFF xfer = true := by decide +kernel

theorem witness_SupplyLowRefusesCommands :
    (low ready).supply.state ≠ .high ∧
    ([0x04, 0x09, 0x0A, 0x10, 0x11, 0x28, 0x30, 0x31, 0x1C, 0x29, 0x18, 0x19, 0x1A, 0x08, 0x20, 0x2A, 0x2B].all
      fun c => (low ready).delivers .a c (blk 0 2 0x57 1 19 8 7)) = true ∧
    TransferFields (blk 0 2 0x57 1 19 8 7) ∧ (∀ e ∈ ((low ready).ctx .a).queue, e.tag ≠ 0) ∧
    (blk 0 1 0 0 0 0 0).mode = 1 ∧ (blk 0 2 0 0 0 0 0).mode = 2 ∧ (blk 0 2 0x57 0 0 0 0).track = 599 ∧
    (blk 0 2 0x68 1 0 0 0).track = 616 ∧ (blk 0 2 0x68 1 0 0 0).head = 1 := by
  unfold TransferFields
  decide +kernel

theorem witness_ReportingCommands :
    ready.delivers .a 0x01 xfer = true ∧ ready.delivers .a 0x02 xfer = true ∧ (ready.ctx .a).notices = [] ∧
    ((ready.post .a .supplyRecovered).ctx .a).notices = [⟨.supplyRecovered, 0, 1, none⟩] ∧
    (ready.post .a .supplyRecovered).delivers .a 0x02 xfer = true ∧
    ready.delivers .a 0x28 xfer = true ∧ ready.supply.state = .high ∧ ready.custody.state = .mounted ∧
    ready.copy = some record ∧ (held .blank).delivers .a 0x28 xfer = true ∧ (held .blank).copy = none ∧
    ready.delivers .a 0x31 xfer = true := by decide +kernel

theorem witness_ReportingCommands_no_medium_and_pending :
    (held .mounting).delivers .a 0x28 xfer = true ∧ (held .mounting).supply.state = .high ∧
    (held .mounting).custody.state = .mounting ∧
    (((ready.updCtx .a fun c => { c with pendingSet := [⟨.supplyLow, 0, 1, none⟩, ⟨.spindleSpeedLost, 0, 1, none⟩] }).ctx
      .a).pendingSet.map fun n => n.body.priority).Pairwise (· < ·) := by decide +kernel

theorem witness_AcknowledgeConditionsByMask : ready.delivers .a 0x03 (blk 0 0x3F 0 0 0 0 0) = true := by decide +kernel

theorem witness_AcceptLockAndUnlock :
    ([0x04, 0x0A, 0x0B].all fun c => ready.delivers .a c xfer) = true ∧ ready.supply.state = .high ∧
    ready.custody.state = .mounted ∧ (ready.ctx .a).acknowledged = ready.custody.generation ∧ ready.FreeFor .a ∧
    (({ ready with custody := { ready.custody with generation := 2 } } : State).ctx .a).acknowledged ≠ 2 ∧
    (exclusive ready).delivers .b 0x0A xfer = true ∧ ((exclusive ready).ctx .b).acknowledged = 1 ∧
    ¬ (exclusive ready).FreeFor .b :=
  ⟨by decide +kernel, rfl, rfl, rfl, freeFor_none _ _ rfl, by decide +kernel, by decide +kernel, rfl, not_freeFor _⟩

/-- A state whose generation no station has acknowledged. -/
def stale (s : State) : State := { s with custody := { s.custody with generation := 2 } }

theorem witness_AcceptLockAndUnlock_refusals :
    ([CustodyState.jammed, .empty, .inserted, .mounting, .ejectPending, .unmounting, .releasing].all fun st =>
      (held st).delivers .a 0x04 xfer && (held st).delivers .a 0x0A xfer && (held st).supply.state == .high &&
        (held st).custody.state == st && ((held st).ctx .a).acknowledged == (held st).custody.generation) = true ∧
    (stale (held .ejectPending)).delivers .a 0x0A xfer = true ∧ (stale (held .ejectPending)).supply.state = .high ∧
    (stale (held .ejectPending)).custody.state = .ejectPending ∧
    ((stale (held .ejectPending)).ctx .a).acknowledged ≠ (stale (held .ejectPending)).custody.generation := by
  decide +kernel

theorem witness_ReserveAndRelease :
    ready.supply.state = .high ∧ ready.delivers .a 0x08 (blk 0 2 255 0 0 0 0) = true ∧
    (blk 0 2 255 0 0 0 0).mode = ReserveMode.write.code ∧ ready.FreeFor .a ∧
    (∀ r, ready.reservation = some r → r.mode ≠ .write) ∧
    (exclusive ready).reservation = some ⟨.a, .exclusive, 0, none⟩ ∧
    (exclusive ready).delivers .a 0x08 (blk 0 1 0 0 0 0 0) = true ∧ ¬ (exclusive ready).FreeFor .b ∧
    (exclusive ready).delivers .b 0x08 (blk 0 1 0 0 0 0 0) = true ∧ (exclusive ready).delivers .a 0x09 xfer = true ∧
    (exclusive ready).delivers .b 0x09 xfer = true ∧ ∀ r, (exclusive ready).reservation = some r → r.holder ≠ .b :=
  ⟨rfl, by decide +kernel, rfl, freeFor_none _ _ rfl, nofun, rfl, by decide +kernel, not_freeFor _, by decide +kernel,
    by decide +kernel, by decide +kernel, fun r h => by cases h; decide⟩

theorem witness_ReserveAndRelease_bad_mode :
    ready.delivers .a 0x08 (blk 0 3 0 0 0 0 0) = true ∧ (blk 0 3 0 0 0 0 0).mode ≠ 1 ∧ (blk 0 3 0 0 0 0 0).mode ≠ 2 := by
  decide +kernel

theorem witness_SpinUpAndSpinDown :
    ready.supply.state = .high ∧ ready.delivers .a 0x10 xfer = true ∧ ready.delivers .a 0x11 xfer = true ∧
    ready.custody.state = .mounted ∧ (held .ejectPending).delivers .a 0x10 xfer = true ∧
    (held .ejectPending).custody.state = .ejectPending ∧ ready.OpenTo .a ∧ ready.FreeFor .a :=
  ⟨rfl, by decide +kernel, by decide +kernel, rfl, by decide +kernel, rfl, openTo_none _ _ rfl, freeFor_none _ _ rfl⟩

theorem witness_SpinUpAndSpinDown_refusals :
    ([CustodyState.jammed, .empty, .inserted, .unmounting, .releasing, .ejectPending].all fun st =>
      (held st).delivers .a 0x10 xfer && (held st).delivers .a 0x11 xfer && (held st).supply.state == .high &&
        (held st).custody.state == st) = true ∧
    (exclusive ready).delivers .b 0x10 xfer = true ∧ (exclusive ready).delivers .b 0x11 xfer = true ∧
    (exclusive ready).supply.state = .high ∧ (exclusive ready).custody.state = .mounted ∧
    ¬ (exclusive ready).OpenTo .b ∧ ¬ (exclusive ready).FreeFor .b :=
  ⟨by decide +kernel, by decide +kernel, by decide +kernel, rfl, rfl, not_openTo _, not_freeFor _⟩

theorem witness_TransferAccepted :
    TransferFields xfer ∧ (∀ e ∈ (ready.ctx .a).queue, e.tag ≠ xfer.tag) ∧ ready.supply.state = .high ∧
    ready.MediumKnownTo .a ∧ (ready.ctx .a).queue.length < 8 ∧ ready.TablesWhole ∧
    ([0x18, 0x19, 0x1A].all fun c => ready.delivers .a c xfer) = true ∧ ready.OpenTo .a ∧ ready.FreeFor .a ∧
    xfer.count ≤ ready.freeBuffers ∧ ready.heldBuffers .a + xfer.count ≤ 12 ∧
    ready.custody.protect ≠ some .isProtected := by
  refine ⟨by unfold TransferFields; decide +kernel, by decide +kernel, rfl, ⟨.inl rfl, rfl⟩, by decide +kernel,
    ⟨by decide +kernel, by decide +kernel⟩, by decide +kernel, openTo_none _ _ rfl, freeFor_none _ _ rfl,
    by decide +kernel, by decide +kernel, by decide +kernel⟩

/-- Eight entries at port A, with every buffer FREE, or none but with twelve buffers held. -/
def eightEntries : State := ready.updCtx .a fun c =>
  { c with queue := (List.range 8).map fun i => { entryIn .verify .ready with tag := byte (i + 16), buffers := [] } }
def twelveHeld : State := { ready with pool := List.replicate 12 (some .a) ++ List.replicate 4 none }

theorem witness_TransferRefusalsInOrder :
    ready.delivers .a 0x18 xfer = true ∧ ¬ TransferFields (blk 7 2 0x58 0 0 1 0) ∧ TransferFields xfer ∧
    (∃ e ∈ ((withEntry ready (entryIn .read .ready)).ctx .a).queue, e.tag = xfer.tag) ∧
    (∀ e ∈ (ready.ctx .a).queue, e.tag ≠ xfer.tag) ∧ (low ready).supply.state ≠ .high ∧
    (held .jammed).custody.state = .jammed ∧ (held .mounting).custody.state = .mounting ∧
    (held .releasing).custody.state = .releasing ∧ ((held .releasing).ctx .a).acknowledged = 1 ∧
    (State.reset.ctx .a).acknowledged ≠ (held .releasing).custody.generation ∧ ready.MediumKnownTo .a ∧
    ¬ (exclusive ready).OpenTo .b ∧ ¬ (exclusive ready).FreeFor .b ∧
    protectedMedium.custody.protect = some .isProtected ∧ protectedMedium.FreeFor .a ∧
    8 ≤ (eightEntries.ctx .a).queue.length ∧ twelveHeld.freeBuffers = 4 ∧
    12 < twelveHeld.heldBuffers .a + xfer.count := by
  refine ⟨by decide +kernel, by unfold TransferFields; decide +kernel, by unfold TransferFields; decide +kernel,
    by decide +kernel, by decide +kernel, by decide +kernel, rfl, rfl, rfl, rfl, by decide +kernel, ⟨.inl rfl, rfl⟩,
    not_openTo _, not_freeFor _, rfl, freeFor_none _ _ rfl, by decide +kernel, by decide +kernel, by decide +kernel⟩

/-- Port B in WRITE reservation: open to port A's READ and VERIFY. -/
def writeHeld (s : State) : State := { s with reservation := some ⟨.b, .write, 0, none⟩ }

theorem openTo_writeHeld (s : State) : (writeHeld s).OpenTo .a := fun r hr => by cases hr; exact .inr rfl

/-- A READ of `xfer` at port A, its fields whole and its tag free, with the supply HIGH. -/
def readArrives (s : State) : Bool :=
  s.delivers .a 0x18 xfer && (s.ctx .a).queue.all (fun e => e.tag != xfer.tag) && s.supply.state == .high

theorem witness_TransferRefusalsInOrder_single_states :
    ([stale (held .ejectPending), stale (held .unmounting), stale (held .releasing), stale ready, stale (held .blank)].all
      fun s => readArrives s && (s.ctx .a).acknowledged != s.custody.generation) = true ∧
    (stale (held .ejectPending)).custody.state = .ejectPending ∧ (stale (held .unmounting)).custody.state = .unmounting ∧
    (stale (held .releasing)).custody.state = .releasing ∧ (stale ready).custody.state = .mounted ∧
    (stale (held .blank)).custody.state = .blank ∧
    (readArrives (writeHeld eightEntries) = true ∧ (writeHeld eightEntries).MediumKnownTo .a ∧
      (writeHeld eightEntries).OpenTo .a ∧ 8 ≤ ((writeHeld eightEntries).ctx .a).queue.length) ∧
    (readArrives (writeHeld twelveHeld) = true ∧ (writeHeld twelveHeld).MediumKnownTo .a ∧
      (writeHeld twelveHeld).OpenTo .a ∧ ((writeHeld twelveHeld).ctx .a).queue.length < 8 ∧
      12 < (writeHeld twelveHeld).heldBuffers .a + xfer.count) ∧
    (let s := { eightEntries with custody := protectedMedium.custody }
     readArrives s = true ∧ s.MediumKnownTo .a ∧ s.OpenTo .a ∧ 8 ≤ (s.ctx .a).queue.length ∧
      s.custody.protect = some .isProtected) ∧
    TransferFields xfer :=
  ⟨by decide +kernel, rfl, rfl, rfl, rfl, rfl, ⟨by decide +kernel, ⟨.inl rfl, rfl⟩, openTo_writeHeld _, by decide +kernel⟩,
    ⟨by decide +kernel, ⟨.inl rfl, rfl⟩, openTo_writeHeld _, by decide +kernel, by decide +kernel⟩,
    ⟨by decide +kernel, ⟨.inl rfl, rfl⟩, openTo_none _ _ rfl, by decide +kernel, rfl⟩,
    by unfold TransferFields; decide +kernel⟩

/-- A READ that has completed, its notice fetched or not. -/
def completed (st : EntryState) (o : XferOutcome) : Entry :=
  { entryIn .read st with outcome := some o, completionTime := some 0 }

theorem witness_FetchDataByEntry :
    ready.delivers .a 0x1B xfer = true ∧ ready.entry? .a 7 = none ∧
    ([entryIn .read .receiving, entryIn .read .inSession, completed .noticed .done, completed .completeUnnoticed .done,
        completed .noticed (.cancelled 0), entryIn .write .ready].all fun e =>
      (withEntry ready e).delivers .a 0x1B xfer && (withEntry ready e).entry? .a 7 == some e) = true := by decide +kernel

theorem witness_CancelByEntry :
    ready.delivers .a 0x1C xfer = true ∧ ready.supply.state = .high ∧ ready.entry? .a 7 = none ∧
    ([entryIn .write .receiving, entryIn .read .ready, completed .noticed .done,
        { entryIn .read .inSession with discard := true }].all fun e =>
      (withEntry ready e).delivers .a 0x1C xfer && (withEntry ready e).entry? .a 7 == some e) = true ∧
    (inSession .read .active 3).hasActiveSlot .a 7 = true ∧ (inSession .read .armed 3).hasActiveSlot .a 7 = false ∧
    ([inSession .read .active 3, inSession .read .armed 3].all fun s =>
      (s.entry? .a 7).any fun e => e.state == .inSession && !e.discard && !e.cancelling) = true := by
  decide +kernel

theorem witness_EjectByModeAndCustody :
    ready.delivers .a 0x20 (blk 0 1 0 0 0 0 0) = true ∧ (held .jammed).delivers .a 0x20 (blk 0 2 0 0 0 0 0) = true ∧
    ready.supply.state = .high ∧ (blk 0 1 0 0 0 0 0).mode = 1 ∧ (blk 0 2 0 0 0 0 0).mode = 2 ∧
    (held .jammed).custody.state = .jammed ∧ ready.custody.state = .mounted ∧ ¬ (exclusive ready).FreeFor .b ∧
    ready.FreeFor .a ∧ ((ready.updCtx .b fun c => { c with lockHeld := true }).ctx .b).lockHeld = true ∧
    (ready.ctx .b).lockHeld = false ∧ ready.ejectBusy = false ∧ (inSession .read .active 3).ejectBusy = true :=
  ⟨by decide +kernel, by decide +kernel, rfl, rfl, rfl, rfl, rfl, not_freeFor _, freeFor_none _ _ rfl, rfl, rfl,
    by decide +kernel, by decide +kernel⟩

theorem witness_EjectByModeAndCustody_refusals :
    ready.delivers .a 0x20 (blk 0 3 0 0 0 0 0) = true ∧ (blk 0 3 0 0 0 0 0).mode ≠ 1 ∧ (blk 0 3 0 0 0 0 0).mode ≠ 2 ∧
    ([CustodyState.empty, .inserted, .mounting, .ejectPending, .unmounting, .releasing].all fun st =>
      (held st).delivers .a 0x20 (blk 0 1 0 0 0 0 0) && (held st).supply.state == .high && (held st).custody.state == st) =
        true := by decide +kernel

theorem witness_MaintenanceAndSetParameters :
    (exclusive ready).supply.state = .high ∧ (exclusive ready).MediumKnownTo .a ∧ (exclusive ready).FreeFor .a ∧
    (exclusive ready).holdsIn .a .exclusive = true ∧ (exclusive ready).custody.protect ≠ some .isProtected ∧
    (exclusive ready).maintBusy .a = false ∧
    ([0x29, 0x2A, 0x2B, 0x30].all fun c => (exclusive ready).delivers .a c (blk 7 2 0x57 1 0 0 0)) = true ∧
    (blk 7 2 0x57 1 0 0 0).track = 599 ∧ (blk 7 2 0x68 1 0 0 0).track = 616 ∧
    (exclusive ready).custody.state = .mounted ∧ (exclusive ready).copy = some record ∧
    record.spares[4]? = some ⟨.free, 0⟩ ∧
    (∀ j f, j < 4 → record.spares[j]? = some f → f.state ≠ .free) ∧
    ready.delivers .a 0x30 xfer = true ∧ ready.FreeFor .a ∧ ready.holdsIn .a .exclusive = false := by
  refine ⟨rfl, ⟨.inl rfl, rfl⟩, freeFor_holder _, rfl, by decide +kernel, by decide +kernel, by decide +kernel, rfl, rfl,
    rfl, rfl, rfl, ?_, by decide +kernel, freeFor_none _ _ rfl, rfl⟩
  intro j f hj hf
  match j, hj with
  | 0, _ => cases hf; decide
  | 1, _ => cases hf; decide
  | 2, _ => cases hf; decide
  | 3, _ => cases hf; decide

/-- The copy with no spare entry FREE. -/
def spentRecord : MediaRecord := { record with spares := List.replicate 16 ⟨.retired, 37⟩ }

theorem witness_MaintenanceAndSetParameters_refusals :
    (599 < (blk 7 2 0x58 0 0 0 0).track ∧ ready.delivers .a 0x2A (blk 7 2 0x58 0 0 0 0) = true) ∧
    (616 < (blk 7 2 0x69 0 0 0 0).track ∧ 1 < (blk 7 0 0 2 0 0 0).head ∧
      ready.delivers .a 0x2B (blk 7 2 0x69 0 0 0 0) = true ∧ ready.delivers .a 0x2B (blk 7 0 0 2 0 0 0) = true) ∧
    ([low ready, held .jammed, held .empty, held .mounting, held .ejectPending, stale ready, stale (held .releasing),
        exclusive (held .blank), exclusive (withEntry ready (entryIn .read .ready)), exclusive protectedMedium,
        { exclusive ready with copy := some spentRecord }].all fun s => [0x29, 0x2A, 0x2B].all fun c =>
          s.delivers .a c (blk 7 0 0 0 0 0 0)) = true ∧
    (exclusive (held .blank)).custody.state = .blank ∧ (exclusive (held .blank)).MediumKnownTo .a ∧
    (exclusive (held .blank)).FreeFor .a ∧ (exclusive (held .blank)).holdsIn .a .exclusive = true ∧
    (exclusive (withEntry ready (entryIn .read .ready))).maintBusy .a = true ∧
    (exclusive protectedMedium).custody.protect = some .isProtected ∧ (exclusive protectedMedium).MediumKnownTo .a ∧
    (let s : State := { exclusive ready with copy := some spentRecord }
     s.custody.state = .mounted ∧ s.MediumKnownTo .a ∧ s.FreeFor .a ∧ s.holdsIn .a .exclusive = true ∧
      s.custody.protect ≠ some .isProtected ∧ s.maintBusy .a = false ∧
      ∀ r, s.copy = some r → ∀ e ∈ r.spares, e.state ≠ .free) ∧
    ready.MediumKnownTo .a ∧ ready.FreeFor .a ∧ ready.holdsIn .a .exclusive = false ∧
    ¬ (exclusive ready).FreeFor .b ∧ (exclusive ready).delivers .b 0x29 (blk 7 0 0 0 0 0 0) = true ∧
    (exclusive ready).MediumKnownTo .b ∧ (exclusive ready).delivers .b 0x30 xfer = true := by
  refine ⟨by decide +kernel, by decide +kernel, by decide +kernel, rfl, ⟨.inr rfl, rfl⟩, freeFor_holder _, rfl,
    by decide +kernel, rfl, ⟨.inl rfl, rfl⟩, ⟨rfl, ⟨.inl rfl, rfl⟩, fun r hr => by cases hr; rfl, rfl, by decide +kernel,
    by decide +kernel, ?_⟩, ⟨.inl rfl, rfl⟩, freeFor_none _ _ rfl, rfl, not_freeFor _, by decide +kernel,
    ⟨.inl rfl, rfl⟩, by decide +kernel⟩
  intro r h
  cases h
  decide +kernel

theorem witness_StoredBytesReadBack :
    ready.MemoryCanonical ∧ (List.replicate 512 (1 : Byte)).length = 512 ∧ 1 < 2 ∧ 19 < 20 ∧ 602 ≠ ready.carriage := by
  unfold State.MemoryCanonical
  decide +kernel

/-- A port A link in a state, with a count of an expected number, its timer started at 0. -/
def linkIn (st : LinkState) (n m : Nat) (out : List Byte) (w : LinkWork) : Link :=
  ⟨st, n, m, some ⟨0, 100000⟩, [], [], out, w, none⟩

/-- A running maintenance operation with tag 7. -/
def running (k : MaintKind) (from_ : StartingCustody) : Maint := ⟨7, k, none, false, from_, 0, 0, 0⟩

theorem witness_LinkBytesAreTaken :
    (ready.ctx .a).linkPresent = true ∧ (ready.link .a).state = .idle ∧
    (let s := withLink ready (linkIn .receivingBlock 6 8 [] .plain)
     (s.link .a).state = .receivingBlock ∧ (s.link .a).received.length < 7) ∧
    (let s := withLink (withEntry ready (entryIn .write .receiving)) (linkIn .dataIn 1022 1024 [] (.writeData 7))
     (s.link .a).state = .dataIn ∧ (s.link .a).counter + 1 < (s.link .a).expected ∧
      (s.link .a).work = .writeData 7 ∧ s.entry? .a 7 = some (entryIn .write .receiving)) ∧
    (let s := withLink ready (linkIn .dataIn 38 40 [] .parameters)
     (s.link .a).counter + 1 < (s.link .a).expected ∧ (s.link .a).work = .parameters) ∧
    (let s := withLink ready (linkIn .dataIn 0 20 [] (.mediaRecord 7))
     (s.link .a).counter + 1 < (s.link .a).expected ∧ (s.link .a).work = .mediaRecord 7) ∧
    (let s := withLink ready (linkIn .responseOut 6 8 [] .plain)
     (s.link .a).state = .responseOut ∧ (s.link .a).counter + 1 < (s.link .a).expected) := by decide +kernel

theorem witness_LinkBytesAreTaken_no_link :
    (({ ready with portA := .reset false } : State).ctx .a).linkPresent = false := rfl

theorem witness_BlockAndStallTimersAbandon :
    ((withLink ready (linkIn .receivingBlock 7 8 [] .plain)).link .a).state = .receivingBlock ∧
    ((withLink ready (linkIn .receivingBlock 7 8 [] .plain)).link .a).timer = some ⟨0, 100000⟩ ∧
    (withLink ready (linkIn .dataOut 0 24 [] .plain)).Sends .a ∧
    ((withLink ready (linkIn .dataOut 0 24 [] .plain)).link .a).timer = some ⟨0, 100000⟩ :=
  ⟨rfl, rfl, ⟨rfl, .inr rfl⟩, rfl⟩

theorem witness_GapTimerUndoesThePhase :
    100000 ≤ ((100000 : Time) - 0).toNat ∧
    ([LinkWork.writeData 7, .mediaRecord 7, .parameters].all fun w =>
      let s := withLink (withEntry ready (entryIn .write .receiving)) (linkIn .dataIn 300 512 [] w)
      (s.link .a).state == .dataIn && (s.link .a).timer == some ⟨0, 100000⟩ && (s.link .a).work == w &&
        s.entry? .a 7 == some (entryIn .write .receiving)) = true := by decide +kernel

theorem witness_OutboundEndCompletes :
    (let s := withLink ready (linkIn .responseOut 7 8 [1] .plain)
     (s.ctx .a).linkPresent = true ∧ (s.link .a).state = .responseOut ∧
      (s.link .a).outPhase ≠ [] ∧ (s.link .a).work ≠ .notice) ∧
    (let s := withLink ready { linkIn .responseOut 7 8 [] .plain with strobe := some 0x18 }
     (s.ctx .a).linkPresent = true ∧ (s.link .a).strobe = some 0x18 ∧ (s.link .a).outPhase = [] ∧
      (s.link .a).work = .plain) ∧
    (ready.ctx .a).notices = [] ∧
    ([completed .completeUnnoticed .done, completed .completeUnnoticed (.cancelled 0)].all fun e =>
      (((withEntry ready e).updCtx .a fun c => { c with notices := [e.notice] }).ctx .a).notices == [e.notice]) = true ∧
    (let s := withLink ready (linkIn .responseOut 7 8 [] .plain)
     (s.link .a).outPhase = [] ∧ (s.link .a).work = .plain) ∧
    ((withLink ready (linkIn .dataOut 23 24 [] .plain)).link .a).state = .dataOut ∧
    (let s := withLink (ready.post .a .supplyRecovered) (linkIn .responseOut 7 8 [] .notice)
     (s.link .a).state = .responseOut ∧ (s.link .a).outPhase = [] ∧ (s.link .a).work = .notice) ∧
    ([EntryState.noticed, .completeUnnoticed].all fun st =>
      let s := withLink (withEntry ready (completed st .done)) (linkIn .dataOut 1023 1024 [] (.fetchData 7))
      (s.link .a).state == .dataOut && (s.link .a).work == .fetchData 7 &&
        s.entry? .a 7 == some (completed st .done)) = true := by decide +kernel

/-- Eight notice records. -/
def fullQueue : List Notice := List.replicate 8 ⟨.supplyRecovered, 0, 1, none⟩
def lowNotice : Notice := ⟨.supplyLow, 0, 1, none⟩

theorem witness_NoticeRefillOrder :
    8 ≤ ((ready.updCtx .a fun c => { c with notices := fullQueue }).ctx .a).notices.length ∧
    (ready.ctx .a).notices.length < 8 ∧ ((ready.updCtx .a fun c => { c with pendingSet := [lowNotice] }).ctx .a).pendingSet =
      lowNotice :: [] ∧
    (ready.ctx .a).pendingSet = [] ∧ (ready.ctx .a).held = [] ∧
    (let c := (ready.updCtx .a fun c => { c with held := [.transfer 7, .maintenance],
                                                 maint := some (running .formatTrack .mounted) }).ctx .a
     c.pendingSet = [] ∧ .maintenance ∈ c.held ∧ c.maint = some (running .formatTrack .mounted)) ∧
    (let c := ((withEntry ready (completed .completeUnnoticed .done)).updCtx .a fun c => { c with held := [.transfer 7] }).ctx .a
     c.pendingSet = [] ∧ .maintenance ∉ c.held ∧ c.held = .transfer 7 :: [] ∧
      (c.queue.find? fun e => e.tag == 7) = some (completed .completeUnnoticed .done)) := by decide +kernel

theorem witness_PostedNoticeIsPlaced :
    (PortContext.reset false).linkPresent = false ∧ (ready.ctx .a).linkPresent = true ∧
    (ready.ctx .a).notices.length < 8 ∧
    (let c : PortContext := { ready.ctx .a with notices := fullQueue, pendingSet := [lowNotice] }
     c.linkPresent = true ∧ 8 ≤ c.notices.length ∧
      (c.pendingSet.map fun m => m.body.priority).Pairwise (· < ·)) := by decide +kernel

theorem witness_PostedNoticeIsPlaced_completions :
    (let c := (withEntry ready (completed .completeUnnoticed .done)).ctx .a
     c.queue.find? (fun e => e.tag == 7) = some (completed .completeUnnoticed .done) ∧ c.linkPresent = true ∧
      c.notices.length < 8 ∧ 8 ≤ ({ c with notices := fullQueue } : PortContext).notices.length ∧
      ({ c with linkPresent := false } : PortContext).linkPresent = false) ∧
    ((ready.updCtx .a fun c => { c with maint := some (running .formatTrack .mounted) }).ctx .a).maint =
      some (running .formatTrack .mounted) ∧
    ready.entry? .a 7 = none ∧
    (inSession .write .active 3).entry? .a 7 =
      some { entryIn .write .inSession with position := some 602, resolved := some 5 } := by decide +kernel

/-- The last of 1,024 bytes to come of a WRITE's phase. -/
def lastOfWrite (s : State) : State :=
  withLink (withEntry s (entryIn .write .receiving)) (linkIn .dataIn 1023 1024 [] (.writeData 7))

theorem witness_WritePhaseEnds :
    1 ≤ [(5 : Byte)].length ∧ (lastOfWrite ready).EndsPhase .a [5] ∧ ((lastOfWrite ready).link .a).work = .writeData 7 ∧
    (lastOfWrite ready).entry? .a 7 = some (entryIn .write .receiving) ∧ (lastOfWrite ready).MemoryCanonical ∧
    (lastOfWrite ready).custody.state = .mounted ∧ (entryIn .write .receiving).generation = ready.custody.generation ∧
    (entryIn .write .receiving).buffers.Nodup ∧
    ((lastOfWrite ready).link .a).counter + [(5 : Byte)].length ≤ 512 * (entryIn .write .receiving).buffers.length ∧
    (lastOfWrite (held .ejectPending)).EndsPhase .a [5] ∧ (lastOfWrite (held .ejectPending)).custody.state ≠ .mounted ∧
    (lastOfWrite (held .ejectPending)).custody.state ≠ .blank :=
  ⟨by decide, ⟨rfl, rfl, rfl⟩, rfl, by decide +kernel, ⟨by decide +kernel, by decide +kernel⟩, rfl, rfl, by decide +kernel,
    by decide +kernel, ⟨rfl, rfl, rfl⟩, by decide +kernel, by decide +kernel⟩

/-- The last of 20 bytes to come of a WRITE MEDIA RECORD's phase. -/
def lastOfRecord (s : State) (m : Maint) : State :=
  withLink (s.updCtx .a fun c => { c with maint := some m }) (lastByteOf 20 (.mediaRecord 7))

theorem witness_RecordAndParameterPhasesEnd :
    (lastOfRecord ready (running .writeMediaRecord .mounted)).EndsPhase .a [5] ∧
    ((lastOfRecord ready (running .writeMediaRecord .mounted)).link .a).work = .mediaRecord 7 ∧
    ((lastOfRecord ready (running .writeMediaRecord .mounted)).ctx .a).maint = some (running .writeMediaRecord .mounted) ∧
    (running .writeMediaRecord .mounted).starting = .mounted ∧
    (lastOfRecord ready (running .writeMediaRecord .mounted)).copy = some record ∧
    (lastOfRecord (held .blank) (running .writeMediaRecord .blank)).EndsPhase .a [5] ∧
    ((lastOfRecord (held .blank) (running .writeMediaRecord .blank)).ctx .a).maint =
      some (running .writeMediaRecord .blank) ∧
    (running .writeMediaRecord .blank).starting = .blank ∧
    (withLink ready (lastByteOf 40 .parameters)).EndsPhase .a [5] ∧
    ((withLink ready (lastByteOf 40 .parameters)).link .a).work = .parameters :=
  ⟨⟨rfl, rfl, rfl⟩, rfl, rfl, rfl, rfl, ⟨rfl, rfl, rfl⟩, rfl, rfl, ⟨rfl, rfl, rfl⟩, rfl⟩

/-- `ready` with a maintenance operation of port A. -/
def withMaint (s : State) (m : Maint) : State := s.updCtx .a fun c => { c with maint := some m }

theorem witness_RecordAndParameterPhasesEnd_ends :
    ([MaintKind.formatTrack, .writeMediaRecord, .mapSpare].all fun k => [false, true].all fun d =>
      ((withMaint ready { running k .mounted with discard := d }).ctx .a).maint ==
        some { running k .mounted with discard := d }) = true ∧
    ((withMaint (held .blank) (running .writeMediaRecord .blank)).ctx .a).maint =
      some (running .writeMediaRecord .blank) ∧
    (withMaint (held .blank) (running .writeMediaRecord .blank)).custody.state = .blank := by decide +kernel

theorem witness_PowerOnResetState :
    (⟨false, false, false, true, true, true, false⟩ : ResetReading).present = false ∧
    (⟨true, false, false, true, true, true, false⟩ : ResetReading).latched = false ∧
    (⟨true, true, true, false, true, true, false⟩ : ResetReading).latched = true := ⟨rfl, rfl, rfl⟩

theorem witness_PortResetClearsThePort :
    (((inSession .write .active 3).ctx .a).queue.map Entry.tag).Nodup ∧
    (exclusive ready).holds .a = true ∧ ready.holds .a = false := by decide +kernel

theorem witness_PortResetClearsThePort_spindle_and_gate :
    (∃ t, exec (.portReset .a) ready = .next t) ∧ ready.seq.gate = false ∧
    ({ ready with spindle := { ready.spindle with standbyStop := true } } : State).spindle.standbyStop = true ∧
    (gateOn false).GateLawful ∧ (gateOn false).seq.gate = true ∧
    ((gateOn false).portReset .b).idleConditions = false :=
  ⟨exists_next _ (by decide +kernel), by decide +kernel, rfl, by unfold State.GateLawful; decide +kernel,
    by decide +kernel, by decide +kernel⟩

theorem witness_PortResetClearsThePort_buffers_and_slots :
    (((inSession .write .active 3).ctx .b).queue.map Entry.tag).Nodup ∧
    (inSession .write .active 3).slots[5]? = some (slotIn .active 3) ∧
    (inSession .write .active 3).slots[6]? = some (slotIn .armed 3) ∧
    (slotIn .active 3).owner = some (.port .a) ∧ (slotIn .active 3).tag = some 7 ∧
    (withEntry ready (entryIn .read .ready)).pool[1]? = some (some .a) ∧
    (∃ e ∈ ((withEntry ready (entryIn .read .ready)).ctx .a).queue, e.state = .ready ∧ 1 ∈ e.buffers) := by decide +kernel

/-- R67: a READY entry's buffers return to FREE; an entry with its operation in flight keeps them, and that slot alone. -/
theorem test_port_reset_frees_buffers_and_slots :
    after (exec (.portReset .a) (withEntry ready (entryIn .read .ready))) (fun t =>
      t.freeBuffers == 16 && t.portA.queue.isEmpty) = true ∧
    after (exec (.portReset .a) (inSession .write .active 3)) (fun t =>
      t.heldBuffers .a == 2 && (t.slot 5).state == .active && (t.slot 6).state == .empty) = true := by decide +kernel

theorem witness_PresenceLines :
    (ready.ctx .a).linkPresent = true ∧
    (({ ready with portA := .reset false } : State).ctx .a).linkPresent = false := ⟨rfl, rfl⟩

/-- STARTING with an index event at 0, or none yet. -/
def starting (now : Time) (last : Option Time) : State :=
  { State.reset with time := now, spindle := { Spindle.reset with state := .starting, duty := 255, lastIndex := last } }

theorem witness_IndexEventOutsideRegulation :
    State.reset.spindle.state = .stopped ∧ (spun .coasting).spindle.state = .coasting ∧
    (spun .braking).spindle.state = .braking ∧ (starting 0 none).spindle.state = .starting ∧
    (starting 21001 (some 0)).spindle.lastIndex = some 0 ∧ 21000 < ((21001 : Time) - 0).toNat ∧
    (starting 21000 (some 0)).spindle.lastIndex = some 0 ∧ ((21000 : Time) - 0).toNat ≤ 21000 := by decide +kernel

/-- 2.12: the first period of at most 21,000 enters LOCKING with duty 150 and starts sector 0. -/
theorem test_first_short_period_locks :
    after (exec (.indexEvent .reportFirst) (starting 20800 (some 0))) (fun t =>
      t.spindle.state == .locking && t.spindle.duty == 150 && t.seq.current == some 0 &&
        t.spindle.period == some 20800) = true ∧
    after (exec (.indexEvent .reportFirst) (starting 22500 (some 0))) (fun t => t.spindle.state == .starting) = true := by
  decide +kernel

/-- 2.12: the fourth good period enters AT_SPEED, at |E| = 100; the second bad one loses speed. -/
theorem test_speed_is_judged :
    after (exec (.indexEvent .windowFirst) { ready with time := 20100, spindle := { turning .locking 162 with goodCount := 3 } })
      (fun t => t.spindle.state == .atSpeed && t.spindle.duty == 165 && t.spindle.goodCount == 0) = true ∧
    after (exec (.indexEvent .windowFirst) { ready with time := 20230, spindle := { turning .atSpeed 175 with badCount := 1 } })
      (fun t => t.spindle.state == .locking && t.spindle.duty == 182 && t.portA.conditions.speedLost) = true := by
  decide +kernel

theorem witness_RegulatedIndexEvent :
    ready.spindle.state = .atSpeed ∧ ready.spindle.lastIndex = some 0 ∧ ready.spindle.faultPending = false ∧
    ({ ready.spindle with faultPending := true } : Spindle).faultPending = true ∧
    (let x : Spindle := { turning .locking 150 with goodCount := 4 }
     x.state = .locking ∧ 4 ≤ x.goodCount) ∧ (turning .locking 150).goodCount < 4 ∧
    (let x : Spindle := { turning .atSpeed 150 with badCount := 2 }
     x.state = .atSpeed ∧ 2 ≤ x.badCount) ∧ (turning .atSpeed 150).badCount < 2 := by decide +kernel

theorem witness_RegulatedIndexEvent_loss_and_pass :
    ([none, some (PosRequest.seek 200), some .recalibrate].all fun q =>
      let v : State := { ready with pos := { Positioner.reset with state := .loading, request := q } }
      v.pos.state == .loading && v.pos.request == q) = true ∧
    ready.pos.state ≠ .loading ∧ ready.seq.pass = none ∧
    (let v : State := { ready with seq := ⟨some 19, none, true, some ⟨0⟩⟩ }
     v.seq.pass ≠ none ∧ v.seq.current = some 19) ∧
    (let v : State := { ready with seq := ⟨some 18, none, true, some ⟨0⟩⟩ }
     v.seq.pass ≠ none ∧ v.seq.current ≠ some 19) := by decide +kernel

theorem witness_FaultTimersRaiseTheFault :
    (starting 0 none).spinRequest.spindle.state = .starting ∧
    (({ State.reset with spindle := .reset } : State).spinRequest).spindle.firstIndexTimer = some ⟨0, 2000000⟩ ∧
    (({ State.reset with spindle := .reset } : State).spinRequest).spindle.lockTimer = some ⟨0, 10000000⟩ ∧
    (ready.ctx .a).linkPresent = true ∧ ready.spindle.state ≠ .starting ∧ ready.pos.state = .onTrack ∧
    State.reset.pos.state = .unloaded ∧
    ({ ready.pos with state := .seeking } : Positioner).state = .seeking := by decide +kernel

/-- A mount in a step. -/
def mounting (st : MountStep) : State :=
  { held .mounting with custody := { (held .mounting).custody with step := some st }, copy := none }

/-- The heads parked, the spindle in a state. -/
def parked (s : State) (st : SpindleState) : State :=
  { s with pos := .reset, carriage := 640, spindle := { turning st 0 with quietTimer := some ⟨0, 400000⟩ } }

theorem witness_BrakingStoppingAndIdleSeconds :
    (let s : State := { ready with spindle := { ready.spindle with faultPending := true }, pos := .reset }
     s.spindle.faultPending = true ∧ s.pos.state = .unloaded) ∧
    ((parked ready .coasting).spindle.state = .coasting ∧ (parked ready .coasting).pos.state = .unloaded) ∧
    (let s : State := { ready with spindle := { ready.spindle with standbyStop := true }, pos := .reset }
     s.spindle.standbyStop = true ∧ s.spindle.state = .atSpeed) ∧
    (let s : State := { parked (mounting .spinning) .braking with time := 400000 }
     s.spindle.state = .braking ∧ s.spindle.quietTimer = some ⟨0, 400000⟩ ∧ 400000 ≤ (s.time - 0).toNat ∧
      s.custody.state = .mounting ∧ s.custody.step = some .spinning ∧ s.custody.supplyHold = false) ∧
    ((withEntry (held .ejectPending) (entryIn .read .ready)).custody.state = .ejectPending ∧
      ∃ e ∈ ((withEntry (held .ejectPending) (entryIn .read .ready)).ctx .a).queue, e.state = .ready) ∧
    (parked ready .braking).custody.state ≠ .ejectPending ∧
    ({ Spindle.reset with restartFlag := true } : Spindle).state = .stopped ∧
    (idling (some ⟨0, 1000000⟩) 2550 false).spindle.idleTimer = some ⟨0, 1000000⟩ := by decide +kernel

/-- The positioner in a state, with a stage plan and a request. -/
def placed (st : PosState) (plan : List Stage) (req : Option PosRequest) : Positioner :=
  { Positioner.reset with state := st, counter := 212, plan := plan, request := req }

theorem witness_LoadsWaitingTargetsAndRetracts :
    (let x : Positioner := { placed .loading [.recalibrate] (some .recalibrate) with loadTimer := some ⟨0, 50000⟩ }
     x.state = .loading ∧ x.loadTimer = some ⟨0, 50000⟩ ∧ x.confidence = .known ∧
      ({ x with confidence := .uncertain } : Positioner).confidence = .uncertain) ∧
    (let s : State := { ready with pos := { Positioner.reset with waitingTarget := some 200 } }
     s.pos.state = .unloaded ∧ s.pos.waitingTarget = some 200 ∧ s.spindle.state = .atSpeed ∧
      s.spindle.standbyStop = false) ∧
    (let x : Positioner := { placed .settling [.seek 200] (some (.seek 200)) with heldRetract := true }
     x.state = .settling ∧ x.heldRetract = true ∧ x.stepTimer = none ∧ x.settleTimer = none) := by decide +kernel

/-- A move of 12 steps at a step, its wait of 5,000 over. -/
def moving (k : MoveKind) (i : Nat) : State :=
  { ready with
    time := 5000
    carriage := 212
    pos := { placed .seeking [.seek 200] (some (.seek 200)) with
      profile := some ⟨k, .inward, 12, i, Params.default.intervals.take 8, 15000⟩, stepTimer := some ⟨0, 5000⟩ } }

theorem witness_StepsSettlesAndArrivals :
    ([MoveKind.seek, .recalSeek, .creep, .retract, .emergency].all fun k => [1, 11, 12].all fun i =>
      (moving k i).pos.profile == some ⟨k, .inward, 12, i, Params.default.intervals.take 8, 15000⟩ &&
        (moving k i).pos.stepTimer == some ⟨0, 5000⟩ && decide (5000 ≤ ((moving k i).time - 0).toNat)) = true ∧
    ([PosState.settling, .retracting].all fun st => [true, false].all fun b =>
      let x : Positioner := { placed st [.seek 200] (some (.seek 200)) with settleTimer := some ⟨0, 15000⟩, heldRetract := b }
      x.settleTimer == some ⟨0, 15000⟩ && x.state == st && x.heldRetract == b) = true := by decide +kernel

theorem witness_StepsSettlesAndArrivals_confidence :
    ready.pos.confidence = .known ∧
    ({ ready with pos := { ready.pos with confidence := .uncertain } } : State).pos.confidence = .uncertain := ⟨rfl, rfl⟩

/-- 3.6, D = 12: the pulse after the first waits 3,500; the carriage moves one track inward. -/
theorem test_second_pulse_of_a_seek :
    after (exec (.stepIntervalExpiry .asCarriage) (moving .seek 1)) (fun t =>
      t.pos.counter == 211 && t.carriage == 211 && t.pos.stepTimer == some ⟨5000, 3500⟩) = true := by decide +kernel

/-- The sequencer at sector 4 with its operation, a format pass or nothing, drive time at the start of sector 5. -/
def atFour (op : Option Operation) (pass : Option FormatPass) (now : Time) : State :=
  { inSession .write .armed 3 with time := now, seq := ⟨some 4, op, pass.isSome, pass⟩ }

theorem witness_SectorStartsAndWindows :
    (let s := atFour none none 5000
     s.spindle.state = .atSpeed ∧ s.spindle.faultPending = false ∧ s.seq.current = some (5 - 1) ∧
      s.spindle.lastIndex = some 0 ∧ s.spindle.period = some 20000 ∧ 5 * 20000 / 20 ≤ (s.time - 0).toNat ∧
      s.session = some serving ∧ serving.phase = .serving ∧ (s.slot 5).state = .armed ∧
      (s.slot 5).owner = some (.port .a) ∧ (s.slot 5).tag = some 7 ∧ s.entry? .a 7 ≠ none ∧ s.seq.op = none ∧
      s.seq.pass = none) ∧
    (State.reset.seq.current ≠ some 0 ∧ State.reset.session = none) ∧
    ((inSession .read .deferred 3).slot 5).state = .deferred ∧ ((inSession .read .active 3).slot 5).state = .active ∧
    ((inSession .read .active 3).slot 5).state ≠ .deferred ∧
    (operating .read .read false false false).seq.op = some ⟨5, .read, 0, 0, false, false⟩ ∧
    (atFour none (some ⟨4051⟩) 5000).seq.pass = some ⟨4051⟩ ∧ ((5000 : Time) - 4051).toNat < 950 ∧
    950 ≤ ((5000 : Time) - 4050).toNat ∧ (atFour none (some ⟨4050⟩) 5000).seq.gate = true ∧
    (atFour none (some ⟨4050⟩) 5000).seq.current = some 4 := by decide +kernel

theorem witness_OperationsRunToTheirEnd :
    (let s := operating .write .write false false false
     s.seq.op = some ⟨5, .write, 0, 0, false, false⟩ ∧ s.session = some serving ∧
      (HeaderReading.found (headerBytes 602 1 5)).wf = true ∧ (DataReading.received (List.replicate 514 0)).wf = true ∧
      judgeHeader 602 1 5 (s.headerFound ⟨5, .write, 0, 0, false, false⟩ (.found (headerBytes 602 1 5))) = .matching ∧
      judgeHeader 602 1 5 (s.headerFound ⟨5, .write, 0, 0, false, false⟩ (.found (headerBytes 38 1 5))) = .trackMismatch ∧
      judgeHeader 602 1 5 (s.headerFound ⟨5, .write, 0, 0, false, false⟩ .missing) = .failed .noHeader ∧
      s.spindle.state = .atSpeed ∧ s.pos.state = .onTrack ∧ s.pos.confidence = .known ∧ s.supply.state = .high ∧
      s.custody.protect = some .writable ∧ 950 ≤ (s.time - 0).toNat) ∧
    (low (operating .write .write false false false)).supply.state ≠ .high ∧
    (operating .write .write true false true).seq.gate = true ∧
    (operating .write .write true true false).seq.op = some ⟨5, .write, 0, 0, true, true⟩ ∧
    (operating .verify .verify true false false).seq.op = some ⟨5, .verify, 0, 0, true, false⟩ ∧
    ((949 : Time) - 0).toNat < 950 := by decide +kernel

/-- The operation of sector 5 over a sector that holds the given header and data field. -/
def over5 (h : HeaderField) (d : DataField) : State :=
  let s := operating .read .read false false false
  s.setImage 1 5 ⟨h, d, noGaps⟩

theorem witness_OperationsRunToTheirEnd_as_recorded :
    (over5 .blank .blank).session = some serving ∧
    ([HeaderField.recorded (headerBytes 602 1 5), .cut 3].all fun h =>
      ((over5 h .blank).image 1 5).header == h) = true ∧
    ((over5 .blank (.torn 3)).image 1 5).data = .torn 3 ∧ ((over5 (.cut 3) .blank).image 1 5).data = .blank ∧
    ((over5 .blank (.recorded (dataFieldBytes (List.replicate 512 0)))).image 1 5).data =
      .recorded (dataFieldBytes (List.replicate 512 0)) := by
  refine ⟨rfl, by decide +kernel, by decide +kernel, by decide +kernel, ?_⟩
  rfl

/-- R7, R82: a matching header turns the gate on; the end of a write that has been recorded is DONE. -/
theorem test_write_of_a_sector :
    after (exec (.dataFieldReached (.found (headerBytes 602 1 5))) (operating .write .write false false false)) (fun t =>
      t.seq.gate) = true ∧
    after (exec (.dataFieldReached (.found (headerBytes 602 0 5))) (operating .write .write false false false)) (fun t =>
      !t.seq.gate) = true ∧
    after (exec (.operationEndPoint .asRecorded .asRecorded) (operating .write .write true true false)) (fun t =>
      (t.slot 5).state == .done && t.seq.op == none) = true := by decide +kernel

theorem witness_OperationResultsOnSlots :
    ([0, 1].all fun n =>
      let s := { inSession .read .active n with seq := ⟨some 5, some ⟨5, .read, 0, 0, true, false⟩, false, none⟩ }
      s.seq.op == some ⟨5, .read, 0, 0, true, false⟩ && !s.seq.gate && s.slots.length == 20 &&
        (s.slot 5).owner == some (.port .a) && (s.slot 5).tag == some 7 && (s.slot 5).retries == n &&
        (s.entry? .a 7).any fun e => !e.discard && !e.cancelling) = true ∧
    (inSession .read .active 3).session = some serving ∧ serving.mismatches = 0 ∧
    ({ serving with mismatches := 1 } : Session).mismatches ≠ 0 := by decide +kernel

/-- The operation of sector 5 of an entry with its two marks. -/
def marked (discard cancelling : Bool) : State :=
  withEntry (operating .read .read true false false)
    { entryIn .read .inSession with
      position := some 602, resolved := some 5, discard := discard, cancelling := cancelling }

/-- A drive-owned record read of sector 0 in flight. -/
def driveServing (retries : Nat) : State :=
  { ready with
    driveReq := some ⟨.recordRead, 0, 0, .custody⟩
    session := some ⟨0, 0, .drive, .serving, false, false, 0, 0, false, false, false⟩
    slots := (List.replicate 20 Slot.blank).set 0 ⟨.active, some .drive, none, retries, none⟩
    seq := ⟨some 0, some ⟨0, .recordRead, 0, 16, true, false⟩, false, none⟩ }

theorem witness_OperationResultsOnSlots_marks_drive_and_gate :
    ([(true, false), (false, true)].all fun m =>
      let s := marked m.1 m.2
      s.seq.op == some ⟨5, .read, 0, 0, true, false⟩ && !s.seq.gate && (s.slot 5).owner == some (.port .a) &&
        (s.slot 5).tag == some 7 && (s.entry? .a 7).any fun e => e.discard == m.1 && e.cancelling == m.2) = true ∧
    ([0, 1].all fun n =>
      let s := driveServing n
      s.seq.op == some ⟨0, .recordRead, 0, 16, true, false⟩ && !s.seq.gate && (s.slot 0).owner == some .drive &&
        (s.slot 0).retries == n && s.session.isSome && s.driveReq == some ⟨.recordRead, 0, 0, .custody⟩) = true ∧
    ready.driveReq = none ∧ ready.session = none ∧ ready.seq.op = none ∧
    ([true, false].all fun r =>
      let s := operating .write .write true r true
      s.seq.gate && s.seq.op == some ⟨5, .write, 0, 0, true, r⟩) = true ∧
    (let s := atFour none (some ⟨4051⟩) 5000
     s.seq.gate = true ∧ s.seq.op = none ∧ s.seq.pass = some ⟨4051⟩ ∧ s.seq.current = some 4) ∧
    (let s : State := { ready with seq := ⟨none, none, true, none⟩ }
     s.seq.gate = true ∧ s.seq.op = none ∧ s.seq.pass = none) := by decide +kernel

theorem witness_SessionsOpenAndGoOn :
    (let s := withEntry ready (entryIn .read .ready)
     s.session = none ∧ s.pos.state = .onTrack ∧ s.driveReq = none ∧
      (((s.ctx .a).queue.find? fun e => e.state == .ready && s.eligible .a e) = some (entryIn .read .ready)) ∧
      (((s.ctx .b).queue.find? fun e => e.state == .ready && s.eligible .b e) = none)) ∧
    ({ ready with driveReq := some ⟨.recordRead, 0, 0, .custody⟩ } : State).driveReq =
      some ⟨.recordRead, 0, 0, .custody⟩ ∧
    (let x : Session := { serving with speedSuspended := true }
     x.speedSuspended = true ∧ ready.spindle.state = .atSpeed) ∧
    (let x : Session := { serving with positionSuspended := true }
     x.positionSuspended = true ∧ x.seekOutstanding = false ∧ ready.pos.state = .onTrack) ∧
    (let s := withEntry ready { entryIn .read .inSession with discard := true }
     ((s.ctx .a).queue.find? fun e => e.discard && e.state == .inSession && !s.hasActiveSlot .a e.tag) =
      some { entryIn .read .inSession with discard := true }) ∧
    (let x : Session := ⟨37, 1, .drive, .serving, false, false, 0, 0, false, false, true⟩
     let s : State := { ready with session := some x, seq := ⟨some 0, none, false, none⟩ }
     s.session = some x ∧ x.passDue = true ∧ x.owner = .drive ∧ x.phase = .serving ∧ x.failed = false ∧
      s.seq.pass = none ∧ s.seq.op = none ∧ s.seq.current = some 0 ∧ s.pos.confidence = .known ∧
      s.custody.protect = some .writable) := by decide +kernel

/-- A SERVING session at position 602 that a READY entry of port A can join, or has no room for. -/
def joinable (st : SlotState) : State :=
  { withEntry ready (entryIn .read .ready) with
    session := some serving
    slots := (List.replicate 20 Slot.blank).set 5 { Slot.blank with state := st }
    seq := ⟨some 3, none, false, none⟩ }

theorem witness_SessionsOpenAndGoOn_joins_and_closes :
    (let s := joinable .empty
     s.entry? .a 7 = some (entryIn .read .ready) ∧ s.session = some serving ∧ s.eligible .a (entryIn .read .ready) = true ∧
      Machine.translate s.copy 37 = serving.track ∧ ∀ i, i < 2 → (s.slot ((5 + i) % 20)).state = .empty) ∧
    ((joinable .armed).slot 5).state ≠ .empty ∧ ready.session = none ∧ ready.judgeJoins.session = none ∧
    (let s : State := { ready with session := some serving }
     s.judgeJoins.session = some serving ∧ (∀ y ∈ s.judgeJoins.slots, y.state = .empty) ∧
      (s.judgeJoins.ctx .a).queue = [] ∧ (s.judgeJoins.ctx .b).queue = [] ∧ serving.seekOutstanding = false) ∧
    (inSession .read .active 3).judgeJoins.session = some serving ∧
    ¬ (∀ y ∈ (inSession .read .active 3).judgeJoins.slots, y.state = .empty) ∧
    ready.pos.waitingTarget = none ∧
    ({ ready with pos := { ready.pos with waitingTarget := some 3 } } : State).pos.waitingTarget ≠ none := by
  decide +kernel

/-- The custody fields of `held`, with more set. -/
def custodyOf (st : CustodyState) (f : Custody → Custody) : State :=
  { held st with custody := f (held st).custody, pos := .reset, carriage := 640 }

theorem witness_InsertionAndMountSteps :
    (Medium.wf [(0, ⟨.recorded (headerBytes 0 0 0), .blank, noGaps⟩)] = true) ∧ State.reset.pins.present = false ∧
    State.reset.custody.state = .empty ∧ ready.pins.present = true ∧
    (held .inserted).custody.state = .inserted ∧
    (custodyOf .inserted fun u => { u with debounceTimer := some ⟨0, 500000⟩ }).custody.debounceTimer =
      some ⟨0, 500000⟩ ∧ 500000 ≤ ((500000 : Time) - 0).toNat ∧
    ((mounting .latching).custody.state = .mounting ∧ (mounting .latching).custody.step = some .latching ∧
      (mounting .latching).custody.forcedRejection = none) ∧
    ((mounting .spinning).custody.step = some .spinning ∧ (mounting .spinning).custody.supplyHold = false ∧
      (mounting .spinning).spindle.state = .atSpeed ∧ (mounting .spinning).spindle.standbyStop = false ∧
      (mounting .spinning).pos.state = .onTrack ∧ State.reset.pos.state = .unloaded) := by decide +kernel

theorem witness_InsertionAndMountSteps_timers_and_rejections :
    (let s : State := { mounting .latching with custody :=
      { (mounting .latching).custody with forcedRejection := some .latch, latchTimer := some ⟨0, 300000⟩ } }
     s.custody.state = .mounting ∧ s.custody.step = some .latching ∧ s.custody.forcedRejection = some .latch ∧
      s.custody.latchTimer = some ⟨0, 300000⟩ ∧ 300000 ≤ (({ s with time := 300000 } : State).time - 0).toNat) ∧
    (let s := custodyOf .mounting fun u => { u with step := some .latching, latchPulse := some ⟨0, 80000⟩ }
     s.custody.latchPulse = some ⟨0, 80000⟩ ∧ 80000 ≤ (({ s with time := 80000 } : State).time - 0).toNat) ∧
    (mounting .readingRecord).custody.forcedRejection = none ∧
    (mounting .readingRecord).custody.step = some .readingRecord ∧
    (mounting .readingRecord).custody.supplyHold = false ∧
    (custodyOf .mounting fun u => { u with step := some .readingRecord, forcedRejection := some .position
                                           deferredEject := true }).custody.forcedRejection = some .position ∧
    (mounting .loading).custody.deferredEject = false := by decide +kernel

/-- R97: the latch timer's expiry rejects the mount with reason LATCH; the latch pulse ends. -/
def latchRunning : State :=
  { mounting .latching with
    time := 300000
    custody := { (mounting .latching).custody with latchTimer := some ⟨0, 300000⟩, latchPulse := some ⟨0, 80000⟩ } }

theorem test_latch_timer_and_pulse :
    after (exec .latchTimerExpiry latchRunning) (fun t => t.custody.state == .unmounting &&
      t.custody.lastMount == some (.rejected .latch)) = true ∧
    after (exec .latchPulseEnd latchRunning) (fun t => t.custody.latchPulse == none) = true := by decide +kernel

theorem witness_UnmountAndRelease :
    ((held .ejectPending).custody.state = .ejectPending ∧ (held .ejectPending).session = none ∧
      ∀ p, ∀ e ∈ ((held .ejectPending).ctx p).queue, e.state ≠ .ready ∧ e.state ≠ .inSession) ∧
    (∀ p m, ((held .ejectPending).ctx p).maint = some m → m.outcome ≠ none) ∧
    (let s := custodyOf .unmounting id
     s.custody.state = .unmounting ∧ s.custody.stopSent = false ∧ s.pos.state = .unloaded ∧ s.spindle.state = .atSpeed) ∧
    (let s := parked (custodyOf .unmounting fun u => { u with stopSent := true }) .stopped
     s.custody.stopSent = true ∧ s.pos.state = .unloaded ∧ s.spindle.state = .stopped ∧ s.supply.state = .high) ∧
    (let s := parked (custodyOf .releasing fun u => { u with attemptDue := true }) .stopped
     s.custody.state = .releasing ∧ s.custody.attemptDue = true) ∧
    (∀ n, n = 1 ∨ n = 2 →
      let s := custodyOf .releasing fun u => { u with releaseTimer := some ⟨0, 2000000⟩, jamCount := n }
      s.custody.releaseTimer = some ⟨0, 2000000⟩ ∧ s.custody.jamCount = n) ∧
    2000000 ≤ ((2000000 : Time) - 0).toNat ∧ (held .jammed).custody.state = .jammed ∧
    (held .jammed).custody.ejectCause ≠ .reject := by
  refine ⟨⟨rfl, rfl, ?_⟩, ?_, ⟨rfl, rfl, rfl, rfl⟩, ⟨rfl, rfl, rfl, rfl⟩, ⟨rfl, rfl⟩, fun _ _ => ⟨rfl, rfl⟩,
    by decide +kernel, rfl, by decide +kernel⟩
  · intro p
    cases p <;> decide +kernel
  · intro p m h
    cases p <;> cases h

/-- RELEASING after the first pulse, its release timer run out, the heads parked and the spindle STOPPED. -/
def secondPulse : State :=
  { parked (custodyOf .releasing fun u => { u with releaseTimer := some ⟨0, 2000000⟩, jamCount := 1 }) .stopped with
    time := 2000000 }

/-- RELEASING with an eject pulse that has run its 80,000 microseconds. -/
def pulsing : State :=
  { parked (custodyOf .releasing fun u => { u with ejectPulse := some ⟨0, 80000⟩, jamCount := 1 }) .stopped with
    time := 80000 }

theorem witness_UnmountAndRelease_second_pulse_and_pulse_end :
    (secondPulse.custody.state = .releasing ∧ secondPulse.custody.releaseTimer = some ⟨0, 2000000⟩ ∧
      2000000 ≤ (secondPulse.time - 0).toNat ∧ secondPulse.custody.jamCount < 2 ∧ secondPulse.supply.state = .high ∧
      secondPulse.pos.state = .unloaded ∧ secondPulse.spindle.state = .stopped) ∧
    (pulsing.custody.ejectPulse = some ⟨0, 80000⟩ ∧ 80000 ≤ (pulsing.time - 0).toNat ∧
      pulsing.custody.state = .releasing) := by decide +kernel

/-- R110, R111: the second pulse follows the first timer in vain; each pulse is followed by the release timer. -/
theorem test_second_pulse :
    after (exec .releaseTimerExpiry secondPulse) (fun t => t.custody.ejectPulse == some ⟨2000000, 80000⟩ &&
      t.custody.jamCount == 2) = true ∧
    after (exec .ejectPulseEnd pulsing) (fun t => t.custody.ejectPulse == none &&
      t.custody.releaseTimer == some ⟨80000, 2000000⟩) = true := by decide +kernel

theorem witness_PanelAndReservationTimer :
    (ready.pins.button = false ∧ ({ ready.pins with button := true } : Pins).button = true) ∧
    ready.custody.holdTimer = none ∧ 5000000 ≤ ((5000000 : Time) - 0).toNat ∧
    (let s := custodyOf .mounted fun u => { u with holdTimer := some ⟨0, 5000000⟩, attentionTimer := some ⟨0, 3000000⟩ }
     s.custody.holdTimer = some ⟨0, 5000000⟩ ∧ s.custody.attentionTimer = some ⟨0, 3000000⟩) ∧
    (low ready).supply.state ≠ .high ∧ ready.supply.state = .high ∧ ready.custody.state = .mounted ∧
    (∃ p, ((ready.updCtx .b fun c => { c with lockHeld := true }).ctx p).lockHeld = true) ∧
    (∃ r, (exclusive ready).reservation = some r ∧ r.mode = .exclusive) ∧
    (¬ ((∃ p, (ready.ctx p).lockHeld = true) ∨ ∃ r, ready.reservation = some r ∧ r.mode = .exclusive)) ∧
    (mounting .readingRecord).custody.step = some .readingRecord ∧ (held .jammed).custody.state = .jammed ∧
    (let r : Reservation := ⟨.b, .write, 5, some ⟨0, 5000000⟩⟩
     ({ ready with reservation := some r } : State).reservation = some r ∧ r.timer = some ⟨0, 5000000⟩) := by
  refine ⟨⟨rfl, rfl⟩, rfl, by decide +kernel, ⟨rfl, rfl⟩, by decide +kernel, rfl, rfl, ⟨.b, rfl⟩, ⟨_, rfl, rfl⟩, ?_,
    rfl, rfl, ⟨rfl, rfl⟩⟩
  rintro (⟨p, h⟩ | ⟨r, h, -⟩)
  · cases p <;> cases h
  · cases h

theorem witness_PanelAndReservationTimer_no_effect :
    ([CustodyState.empty, .inserted, .unmounting, .releasing, .ejectPending].all fun st =>
      (held st).custody.state == st && (held st).supply.state == .high) = true := by decide +kernel

/-- A lock, or none, at port A, with a reservation of port A or of nobody. -/
def asked (lock holds : Bool) : State :=
  (if holds then exclusive ready else ready).updCtx .a fun c => { c with lockHeld := lock }

theorem witness_PanelAndReservationTimer_asked_ports :
    (∀ lock, ((asked lock true).ctx .a).lockHeld = lock ∧ ∃ r, (asked lock true).reservation = some r ∧ r.holder = .a) ∧
    (∀ lock, ((asked lock false).ctx .a).lockHeld = lock ∧ (asked lock false).reservation = none) :=
  ⟨fun _ => ⟨rfl, _, rfl, rfl⟩, fun _ => ⟨rfl, rfl⟩⟩

theorem witness_SupplyEdgesAndRecovery :
    ready.supply.state = .high ∧ (low ready).supply.state = .low ∧
    (let s : State := { mounting .spinning with supply := ⟨.recovering, some ⟨0, 100000⟩⟩ }
     s.supply.state = .recovering ∧ s.supply.recoveryTimer = some ⟨0, 100000⟩ ∧ s.custody.state = .mounting) ∧
    100000 ≤ ((100000 : Time) - 0).toNat ∧ (held .releasing).custody.state = .releasing ∧
    (custodyOf .mounting fun u => { u with supplyHold := true }).custody.supplyHold = true ∧
    (ready.ctx .b).linkPresent = true ∧ ready.spindle.state = .atSpeed ∧ State.reset.pos.state = .unloaded ∧
    ready.pos.state ≠ .unloaded ∧ ready.pos.state ≠ .loading := by decide +kernel

/-- R142, 9.2: a falling edge during a seek drops the supply, starts the emergency retract and lets the spindle coast. -/
theorem test_falling_edge_during_a_seek :
    after (exec .supplyFallingEdge (moving .seek 1)) (fun t =>
      t.supply.state == .low && t.pos.state == .emergencyRetract && t.spindle.state == .coasting &&
        t.spindle.duty == 0 && t.portA.conditions.supplyLow) = true := by decide +kernel

/-- R97: the end of the debounce pulses the latch; R99: the latched cartridge asks for speed. -/
theorem test_insertion :
    after (exec (.presentSensorActive []) State.reset) (fun t =>
      t.custody.state == .inserted && t.custody.debounceTimer == some ⟨0, 500000⟩) = true ∧
    after (exec (.latchSensorLatched true) (parked (mounting .latching) .stopped)) (fun t =>
      t.custody.step == some .spinning && t.spindle.state == .starting &&
        t.custody.protect == some .isProtected) = true := by decide +kernel

end Sys2Proof.Tests
end

section
/-! SUPPORT. The check code (R6): its bit step, its two recorded bytes, why a field with a good check leaves zero, and
the recorded formats that end in it; then the statement of the check code. -/

namespace Sys2Proof.Machine

/-! ### The bit step and the byte step -/

/-- The bit step by the generator x^16 + x^12 + x^5 + 1 (R6): a shift left, and bits 12, 5 and 0 turned when the bits
compared differ. -/
theorem crcBit_getLsbD (reg : BitVec 16) (b : Bool) {i : Nat} (hi : i < 16) :
    (crcBit reg b).getLsbD i =
      ((decide (1 ≤ i) && reg.getLsbD (i - 1)) ^^ ((reg.getLsbD 15 != b) && (i == 12 || i == 5 || i == 0))) := by
  have generator : ∀ j < 16, (0x1021#16).getLsbD j = (j == 12 || j == 5 || j == 0) := by decide
  have shifted : (reg <<< 1).getLsbD i = (decide (1 ≤ i) && reg.getLsbD (i - 1)) := by
    rw [BitVec.getLsbD_shiftLeft]
    grind
  have top : reg.msb = reg.getLsbD 15 := BitVec.msb_eq_getLsbD_last reg
  unfold crcBit
  split
  case isTrue same =>
    rw [shifted]
    simp_all
  case isFalse differ =>
    rw [BitVec.getLsbD_xor, shifted, generator i hi]
    simp_all

/-- A bit equal to the register's top bit only shifts. -/
theorem crcBit_msb (reg : BitVec 16) : crcBit reg reg.msb = reg <<< 1 := by simp [crcBit]

/-- Bit 0 after the step says whether the bits compared differed, so the step can be undone. -/
theorem crcBit_injective (b : Bool) : Function.Injective (crcBit · b) := by
  intro r r' h
  have bits (i : Nat) : (crcBit r b).getLsbD i = (crcBit r' b).getLsbD i := congrArg (BitVec.getLsbD · i) h
  have top : r.getLsbD 15 = r'.getLsbD 15 := by
    have lowest := bits 0
    rw [crcBit_getLsbD r b (by decide), crcBit_getLsbD r' b (by decide)] at lowest
    simpa using lowest
  apply BitVec.eq_of_getLsbD_eq
  intro i hi
  obtain rfl | below : i = 15 ∨ i < 15 := by omega
  · exact top
  · have above := bits (i + 1)
    rw [crcBit_getLsbD r b (by omega), crcBit_getLsbD r' b (by omega), top] at above
    simpa using above

/-- For one byte taken in, different registers stay different. -/
theorem crcByte_injective (x : Byte) : Function.Injective (crcByte · x) := by
  intro r r' h
  simpa only [crcByte, List.foldl_cons, List.foldl_nil, (crcBit_injective _).eq_iff] using h

/-- A byte equal to the register's upper half meets an equal bit at each of its eight steps, and so only shifts. -/
theorem crcByte_upperHalf (reg : BitVec 16) : crcByte reg (reg.extractLsb' 8 8) = reg <<< 8 := by
  have bitStep (i : Nat) (hi : i < 8) :
      crcBit (reg <<< i) ((reg.extractLsb' 8 8).getLsbD (7 - i)) = reg <<< (i + 1) := by
    have top : (reg.extractLsb' 8 8).getLsbD (7 - i) = (reg <<< i).msb := by
      rw [BitVec.msb_eq_getLsbD_last, BitVec.getLsbD_shiftLeft, BitVec.getLsbD_extractLsb']
      grind
    rw [top, crcBit_msb, BitVec.shiftLeft_add]
  have topBit := bitStep 0 (by decide)
  rw [BitVec.shiftLeft_zero] at topBit
  simp only [crcByte, List.foldl_cons, List.foldl_nil]
  rw [topBit, bitStep 1 (by decide), bitStep 2 (by decide), bitStep 3 (by decide), bitStep 4 (by decide),
    bitStep 5 (by decide), bitStep 6 (by decide), bitStep 7 (by decide)]

/-! ### The check over bytes and its two tests -/

theorem crc_concat (l : List Byte) (x : Byte) : crc (l ++ [x]) = crcByte (crc l) x := by
  simp [crc]

theorem word16_toNat (x : BitVec 16) : word16 x.toNat = [x.extractLsb' 8 8, x.extractLsb' 0 8] := by
  have upper : byte (x.toNat / 256) = x.extractLsb' 8 8 :=
    BitVec.eq_of_toNat_eq (by simp [byte, Nat.shiftRight_eq_div_pow])
  have lower : byte x.toNat = x.extractLsb' 0 8 := BitVec.eq_of_toNat_eq (by simp [byte])
  rw [word16, upper, lower]

theorem crcBytes_eq (l : List Byte) : crcBytes l = [(crc l).extractLsb' 8 8, (crc l).extractLsb' 0 8] :=
  word16_toNat (crc l)

@[simp] theorem crcBytes_length (l : List Byte) : (crcBytes l).length = 2 := rfl

/-- A register is known by its two halves. -/
theorem halves_eq_iff (x : BitVec 16) (hi lo : Byte) :
    (x.extractLsb' 8 8 = hi ∧ x.extractLsb' 0 8 = lo) ↔ x = hi ++ lo := by
  constructor
  · rintro ⟨rfl, rfl⟩
    exact (BitVec.extractLsb'_append_extractLsb' (w := 8) (len := 8)).symm
  · rintro rfl
    exact ⟨BitVec.extractLsb'_append_eq_left, BitVec.extractLsb'_append_eq_right⟩

/-- The test of R6: the two recorded bytes are the check, most significant byte first. -/
theorem checkGood_iff_crc_eq (l : List Byte) (hi lo : Byte) : checkGood l [hi, lo] = true ↔ crc l = hi ++ lo := by
  rw [checkGood, beq_iff_eq, crcBytes_eq, ← halves_eq_iff]
  simp

/-- A register's own two bytes shift it out. -/
theorem crcByte_ownBytes (hi lo : Byte) : crcByte (crcByte (hi ++ lo) hi) lo = 0 := by
  have upperOut : crcByte (hi ++ lo) hi = (hi ++ lo) <<< 8 := by
    simpa only [BitVec.extractLsb'_append_eq_left] using crcByte_upperHalf (hi ++ lo)
  have upper : ((hi ++ lo) <<< 8).extractLsb' 8 8 = lo := by
    apply BitVec.eq_of_getLsbD_eq
    intro i hi
    rw [BitVec.getLsbD_extractLsb', BitVec.getLsbD_shiftLeft, BitVec.getLsbD_append]
    grind
  calc crcByte (crcByte (hi ++ lo) hi) lo
      = crcByte ((hi ++ lo) <<< 8) (((hi ++ lo) <<< 8).extractLsb' 8 8) := by rw [upperOut, upper]
    _ = (hi ++ lo) <<< 8 <<< 8 := crcByte_upperHalf _
    _ = 0 := by rw [← BitVec.shiftLeft_add]; exact BitVec.shiftLeft_eq_zero (by decide)

/-- Running on through two recorded bytes leaves zero exactly when they are the check: they take the check to zero, and
the byte step takes no other register there. -/
theorem crc_field_eq_zero_iff (l : List Byte) (hi lo : Byte) : crc (l ++ [hi, lo]) = 0 ↔ crc l = hi ++ lo := by
  have run : crc (l ++ [hi, lo]) = crcByte (crcByte (crc l) hi) lo := by simp [crc]
  rw [run, ← crcByte_ownBytes hi lo, (crcByte_injective lo).eq_iff, (crcByte_injective hi).eq_iff]

/-- The check of the nine characters 1 to 9. -/
theorem referenceCheck : crc [0x31, 0x32, 0x33, 0x34, 0x35, 0x36, 0x37, 0x38, 0x39] = 0x29B1#16 := by decide +kernel

/-! ### The recorded formats -/

/-- Content with its check appended is its own first bytes followed by their check. -/
theorem appendedCheck_covers {content : List Byte} {n : Nat} (h : content.length = n) :
    let field := content ++ crcBytes content
    field = field.take n ++ crcBytes (field.take n) ∧ field.length = n + 2 := by
  simp [List.take_left' h, h]

theorem headerBytes_check (p h k : Nat) :
    headerBytes p h k = (headerBytes p h k).take 5 ++ crcBytes ((headerBytes p h k).take 5) ∧
      (headerBytes p h k).length = 7 :=
  appendedCheck_covers (n := 5) rfl

theorem SpareEntry.bytes_length (e : SpareEntry) : e.bytes.length = 3 := rfl

theorem MediaRecord.body_length (r : MediaRecord) (serial : r.serial.length = 4) (label : r.label.length = 16)
    (spares : r.spares.length = 16) : r.body.length = 510 := by
  have entries : (r.spares.flatMap SpareEntry.bytes).length = 48 := by
    simp [List.length_flatMap, SpareEntry.bytes_length, spares]
  simp only [MediaRecord.body, word16, List.length_append, List.length_cons, List.length_nil, List.length_replicate,
    serial, label, entries]

/-- Settles O13, clause by clause from the lemmas above; the residue test turns on the byte step being injective. -/
theorem checkCodeOfEveryField : Obligations.CheckCodeOfEveryField := by
  refine ⟨fun reg b i hi => crcBit_getLsbD reg b hi, fun _ _ => rfl, rfl, crc_concat, crcBytes_eq,
    checkGood_iff_crc_eq, ?residue, referenceCheck, headerBytes_check, ?dataField, ?record⟩
  case residue =>
    intro l hi lo
    rw [checkGood_iff_crc_eq, crc_field_eq_zero_iff]
  case dataField =>
    intro l hl
    exact ⟨rfl, (appendedCheck_covers hl).2⟩
  case record =>
    intro r serial label spares
    exact appendedCheck_covers (r.body_length serial label spares)

end Sys2Proof.Machine
end

section
/-! SUPPORT. Where a posted event kind and a completion are placed (R148, R149), by the link and the room in the queue;
what a condition flag's setting does (R151); then the statement of the notice's placing. -/

namespace Sys2Proof.Machine

/-! ### Posting an event kind (R148) -/

theorem PortContext.post_of_noLink (c : PortContext) (n : Notice) (absent : c.linkPresent = false) : c.post n = c := by
  simp [PortContext.post, absent]

theorem PortContext.post_of_room (c : PortContext) (n : Notice) (present : c.linkPresent = true)
    (room : c.notices.length < 8) : c.post n = { c with notices := c.notices ++ [n] } := by
  simp [PortContext.post, noticeRoom, present, room]

theorem PortContext.post_of_full (c : PortContext) (n : Notice) (present : c.linkPresent = true)
    (full : 8 ≤ c.notices.length) : c.post n = { c with pendingSet := keepPending c.pendingSet n } := by
  simp [PortContext.post, noticeRoom, present, Nat.not_lt.2 full]

/-- Keeping a record replaces the one of its kind whole and leaves the others. The order of the set is what makes this
so: the insertion goes no further than the record's own place, and past it no kind is the record's. -/
theorem mem_keepPending (l : List Notice) (n m : Notice) (sorted : (l.map fun k => k.body.priority).Pairwise (· < ·)) :
    m ∈ keepPending l n ↔ m = n ∨ m ∈ l ∧ m.body.priority ≠ n.body.priority := by
  induction l with
  | nil => simp [keepPending]
  | cons k rest ih =>
    obtain ⟨below, sortedRest⟩ := List.pairwise_cons.1 sorted
    have after : m ∈ rest → k.body.priority < m.body.priority := fun hm => below _ (List.mem_map_of_mem hm)
    unfold keepPending
    split
    next before =>
      have others : m ∈ k :: rest → m.body.priority ≠ n.body.priority := by
        rintro (_ | ⟨_, hm⟩)
        · omega
        · exact (before.trans (after hm)).ne'
      rw [List.mem_cons, and_iff_left_of_imp others]
    next =>
      split
      next same =>
        have others : m ∈ rest → m.body.priority ≠ n.body.priority := fun hm => same ▸ (after hm).ne'
        grind
      next other =>
        have head : m = k → m.body.priority ≠ n.body.priority := fun hm => hm ▸ Ne.symm other
        rw [List.mem_cons, ih sortedRest]
        grind

/-! ### Placing a completion (R149) -/

section
variable {c : PortContext} {tag : Byte} {e : Entry} {m : Maint}

theorem PortContext.placeTransfer_of_noLink (absent : c.linkPresent = false) : c.placeTransfer tag = c := by
  unfold PortContext.placeTransfer
  split
  · rfl
  · simp [absent]

theorem PortContext.placeTransfer_of_room (live : c.queue.find? (fun e => e.tag == tag) = some e)
    (present : c.linkPresent = true) (room : c.notices.length < 8) :
    c.placeTransfer tag = { c.place tag .queued with notices := c.notices ++ [e.notice] } := by
  simp [PortContext.placeTransfer, noticeRoom, live, present, room]

theorem PortContext.placeTransfer_of_full (live : c.queue.find? (fun e => e.tag == tag) = some e)
    (present : c.linkPresent = true) (full : 8 ≤ c.notices.length) :
    c.placeTransfer tag = { c.place tag .held with held := c.held ++ [.transfer tag] } := by
  simp [PortContext.placeTransfer, noticeRoom, live, present, Nat.not_lt.2 full]

theorem PortContext.placeMaint_of_noLink (absent : c.linkPresent = false) : c.placeMaint = c := by
  unfold PortContext.placeMaint
  split
  · rfl
  · simp [absent]

theorem PortContext.placeMaint_of_room (kept : c.maint = some m) (present : c.linkPresent = true)
    (room : c.notices.length < 8) : c.placeMaint = { c with notices := c.notices ++ [m.notice] } := by
  simp [PortContext.placeMaint, noticeRoom, kept, present, room]

theorem PortContext.placeMaint_of_full (kept : c.maint = some m) (present : c.linkPresent = true)
    (full : 8 ≤ c.notices.length) : c.placeMaint = { c with held := c.held ++ [.maintenance] } := by
  simp [PortContext.placeMaint, noticeRoom, kept, present, Nat.not_lt.2 full]

end

/-! ### Completing an entry (R62) -/

/-- A completion gives the buffers up except for a READ that is DONE (R59). -/
theorem Entry.releasesAt_eq (e : Entry) (o : XferOutcome) : e.releasesAt o = decide (e.op = .write ∨ o ≠ .done) := by
  rw [Entry.releasesAt, Bool.decide_or, decide_not, Bool.beq_eq_decide_eq, Bool.beq_eq_decide_eq]

theorem State.completeEntry_of_none {s : State} {p : Port} {tag : Byte} (o : XferOutcome) (dead : s.entry? p tag = none) :
    s.completeEntry p tag o = s := by
  simp [State.completeEntry, dead]

theorem State.completeEntry_of_some {s : State} {p : Port} {tag : Byte} {e : Entry} (o : XferOutcome)
    (live : s.entry? p tag = some e) :
    s.completeEntry p tag o =
      (let ended := s.updEntry p tag fun f => f.complete o s.time
       if e.releasesAt o then ended.assignBuffers e.buffers none else ended).updCtx p fun c => c.placeTransfer tag := by
  simp [State.completeEntry, live]

/-! ### Setting a condition flag (R151) -/

theorem PortContext.raise_of_noLink (c : PortContext) (f : Flag) (absent : c.linkPresent = false) : c.raise f = c := by
  simp [PortContext.raise, absent]

theorem PortContext.raise_of_link (c : PortContext) (f : Flag) (present : c.linkPresent ≠ false) :
    c.raise f = { c with conditions := c.conditions.raise f } := by
  simp [PortContext.raise, present]

/-- Settles O41: posting and placing by the link and the room in the queue; the full queue's clause turns on
`mem_keepPending` and `keepPending_sorted`. -/
theorem postedNoticeIsPlaced : Obligations.PostedNoticeIsPlaced := by
  refine ⟨?post, fun _ _ => ⟨rfl, fun _ => rfl⟩, ?transfer, ?maintenance, ?completion, ?flag⟩
  case post =>
    intro c n
    refine ⟨c.post_of_noLink n, c.post_of_room n, fun present full sorted => ?_⟩
    rw [c.post_of_full n present full]
    have members (m : Notice) := mem_keepPending c.pendingSet n m sorted
    exact ⟨rfl, (members n).2 (.inl rfl), members, keepPending_sorted _ n sorted⟩
  case transfer =>
    intro c tag e live
    exact ⟨PortContext.placeTransfer_of_noLink, PortContext.placeTransfer_of_room live,
      PortContext.placeTransfer_of_full live⟩
  case maintenance =>
    intro c m kept
    exact ⟨PortContext.placeMaint_of_noLink, PortContext.placeMaint_of_room kept, PortContext.placeMaint_of_full kept⟩
  case completion =>
    intro s p tag o
    refine ⟨State.completeEntry_of_none o, fun e live => ?_⟩
    simp only [State.completeEntry_of_some o live, Entry.complete, Entry.releasesAt_eq]
  case flag =>
    intro s f setFlag
    have raises (c : PortContext) : c.raise f = setFlag c := by
      by_cases absent : c.linkPresent = false
      · rw [c.raise_of_noLink f absent]
        exact (if_pos absent).symm
      · rw [c.raise_of_link f absent]
        cases f <;> exact (if_neg absent).symm
    rw [← raises, ← raises]
    rfl

end Sys2Proof.Machine
end

section
/-! SUPPORT. What every command keeps (`State.Sustains`): drive time, the waiting commands, the parameter table, and the
structural and duty laws; then the statements about a step that follow from it. -/

namespace Sys2Proof.Machine

/-! ### The relation -/

/-- What a command keeps of the state `s` before it, with the parameter table counted in. -/
structure State.Sustains (s t : State) : Prop where
  time : t.time = s.time
  pending : t.pending = s.pending
  params : t.params = s.params
  sound : s.Sound → t.Sound
  duty : s.spindle.DutyLawful → t.spindle.DutyLawful

theorem State.Sustains.trans {s u t : State} (h : s.Sustains u) (k : u.Sustains t) : s.Sustains t :=
  ⟨k.time.trans h.time, k.pending.trans h.pending, k.params.trans h.params, k.sound ∘ h.sound, k.duty ∘ h.duty⟩

theorem State.Kept.sustains {s t : State} (h : s.Kept t) : s.Sustains t := by
  obtain ⟨time, -, params, -, pending, -, sound, duty⟩ := h
  exact ⟨time, pending, params, sound, duty⟩

/-- The pins are not spoken of. -/
theorem sustains_pins (s : State) (x : Pins) : s.Sustains { s with pins := x } := ⟨rfl, rfl, rfl, id, id⟩

/-- Nor is the supply. -/
theorem sustains_pins_supply (s : State) (x : Pins) (y : Supply) : s.Sustains { s with pins := x, supply := y } :=
  ⟨rfl, rfl, rfl, id, id⟩

/-- Nor is the custody record. -/
theorem sustains_updCustody (s : State) (f : Custody → Custody) : s.Sustains (s.updCustody f) :=
  ⟨rfl, rfl, rfl, id, id⟩

/-! ### Commands of a station -/

theorem sustains_command (s : State) (p : Port) (code tag : Byte) (blk : Block) (checks : List (Bool × Outcome))
    (accept : State → State) (accepted : firstFail checks = none → s.Sustains (accept (s.restartLimit p))) :
    s.Sustains (s.command p code tag blk checks accept) := by
  have limit : s.Kept (s.restartLimit p) := kept_restartLimit s s p (.refl s)
  unfold State.command
  split
  · split
    · exact (kept_respond _ _ _ _ _ _ _ limit).sustains
    · exact accepted ‹_›
  · exact (State.Kept.refl s).sustains

/-- Checks that all pass. -/
theorem firstFail_eq_none {l : List (Bool × Outcome)} : firstFail l = none ↔ ∀ c ∈ l, c.1 = false := by
  induction l with
  | nil => simp [firstFail]
  | cons c rest ih =>
    obtain ⟨fails, o⟩ := c
    cases fails <;> simp [firstFail, ih]

theorem restartLimit_frame (s : State) (p : Port) :
    ∃ r, s.restartLimit p = { s with reservation := r } := by
  unfold State.restartLimit
  split
  · exact ⟨_, rfl⟩
  · split <;> exact ⟨_, rfl⟩

/-- A context's change that keeps its bounds there keeps the laws. -/
theorem kept_updCtx_here {a s : State} {p : Port} {f : PortContext → PortContext}
    (hf : (s.ctx p).Bounded → (f (s.ctx p)).Bounded) (h : a.Kept s) : a.Kept (s.updCtx p f) := by
  obtain ⟨h1, h2, h3, h4, h5, h6, sound, h8⟩ := h
  refine ⟨by simpa, by simpa, by simpa, by simpa, by simpa, by simpa, fun k => ?_, by simpa⟩
  obtain ⟨memory, boundA, boundB, tables, shared⟩ := sound k
  cases p
  · exact ⟨memory, hf boundA, boundB, tables, shared⟩
  · exact ⟨memory, boundA, hf boundB, tables, shared⟩

/-- An entry that joins the tail keeps the bounds while there is room and no entry has its tag (R57). -/
theorem Bounded.concat {c : PortContext} {e : Entry} (room : c.queue.length < 8) (fresh : ∀ f ∈ c.queue, f.tag ≠ e.tag)
    (h : c.Bounded) : ({ c with queue := c.queue ++ [e] } : PortContext).Bounded := by
  obtain ⟨notices, -, tags, pending⟩ := h
  refine ⟨notices, by simpa using room, ?_, pending⟩
  simp only [List.map_append, List.map_cons, List.map_nil]
  refine tags.append (List.nodup_singleton _) ?_
  simpa [List.disjoint_singleton] using fresh

theorem entry?_eq_none {s : State} {p : Port} {tag : Byte} :
    s.entry? p tag = none ↔ ∀ e ∈ (s.ctx p).queue, e.tag ≠ tag := by
  simp [State.entry?]

/-- An accepted transfer takes no more buffers than the port may hold (R58, R59). -/
theorem kept_acceptTransfer (s : State) (p : Port) (op : XferOp) (b : Block)
    (passed : firstFail (s.transferChecks p op b) = none) :
    s.Kept ((s.restartLimit p).acceptTransfer p op b) := by
  have pass := firstFail_eq_none.1 passed
  simp only [State.transferChecks, List.forall_mem_cons, List.not_mem_nil, false_implies, implies_true,
    and_true] at pass
  obtain ⟨-, tagFree, -, -, -, -, -, -, -, queueRoom, bufferRoom⟩ := pass
  obtain ⟨r, hr⟩ := restartLimit_frame s p
  rw [hr]
  set u : State := { s with reservation := r } with hu
  have fresh : ∀ e ∈ (s.ctx p).queue, e.tag ≠ b.tag := entry?_eq_none.1 (by simpa using tagFree)
  have room : (s.ctx p).queue.length < 8 := by simpa using queueRoom
  have buffers (q : Port) (hq : some p = some q) (taken : op ≠ .verify) :
      u.heldBuffers q + (s.takeFree b.count).length ≤ 12 := by
    obtain rfl : p = q := by simpa using hq
    have few : (s.takeFree b.count).length ≤ b.count := by simp [State.takeFree]
    have share : s.heldBuffers p + b.count ≤ 12 := by
      simp [State.lacksBuffers, taken] at bufferRoom
      exact bufferRoom.2
    exact (Nat.add_le_add_left few _).trans share
  have given : s.Kept (u.assignBuffers (u.newEntry op b).buffers (some p)) := by
    unfold State.newEntry
    dsimp only
    split
    · exact State.Kept.refl s
    · exact kept_assign s u _ _ (fun q hq => buffers q hq ‹_›) (.refl s)
  refine kept_updSpindle s _ _ (fun _ h => h) (kept_updCtx_here (fun h => ?_) given)
  cases p
  · exact Bounded.concat room fresh h
  · exact Bounded.concat room fresh h

/-- A command with operands that an event can carry. -/
theorem next_of_guard {c : Prop} [Decidable c] {u t : State} {r : Refusal}
    (done : (if c then Host.Outcome.next u else .refused r : Host.Outcome State Fault Refusal) = .next t) :
    c ∧ u = t := by
  split at done
  · exact ⟨‹c›, Host.Outcome.next.inj done⟩
  · cases done

theorem next_of_wf {c : Prop} [Decidable c] {u t : State} {r : Refusal}
    (done : (if c then Host.Outcome.next u else .refused r : Host.Outcome State Fault Refusal) = .next t) : t = u :=
  (next_of_guard done).2.symm

/-- A cartridge's recording is canonical where its sectors stand in order. -/
theorem sound_medium (s : State) (m : Medium) (wf : m.wf = true) (h : s.Sound) :
    ({ s with medium := m } : State).Sound := by
  obtain ⟨⟨ram, -⟩, rest⟩ := h
  exact ⟨⟨ram, wfAbove_sparseWfAbove none m wf⟩, rest⟩

/-! ### The index event and the cascade -/

/-- A regulated duty is lawful in LOCKING and AT_SPEED (R18, R20). -/
theorem kept_regulate (s : State) (regulated : s.spindle.state = .locking ∨ s.spindle.state = .atSpeed) :
    s.Kept s.regulate := by
  refine ⟨rfl, rfl, rfl, rfl, rfl, rfl, id, fun h => ?_⟩
  have bounds : 40 ≤ s.regulate.spindle.duty ∧ s.regulate.spindle.duty ≤ 255 := by
    have before : 40 ≤ s.spindle.duty ∧ s.spindle.duty ≤ 255 := by
      rcases regulated with e | e <;> simpa [Spindle.DutyLawful, e] using h
    simp only [State.regulate, State.updSpindle_spindle, Spindle.takeIndex]
    cases s.spindle.lastIndex with
    | none => exact before
    | some a => exact nextDuty_bounds _ _
  have state : s.regulate.spindle.state = s.spindle.state := rfl
  rcases regulated with e | e <;> rw [Spindle.DutyLawful, state, e] <;> exact bounds

/-- A changed spindle whose duty is still lawful. -/
theorem kept_spindle {a s : State} (x : Spindle) (duty : s.spindle.DutyLawful → x.DutyLawful) (h : a.Kept s) :
    a.Kept { s with spindle := x } := by
  obtain ⟨time, pins, params, supply, pending, pulse, sound, lawful⟩ := h
  exact ⟨time, pins, params, supply, pending, pulse, sound, duty ∘ lawful⟩

theorem kept_indexStarting (s : State) : s.Kept s.indexStarting := by
  unfold State.indexStarting
  extract_lets t
  have ht : s.Kept t := kept_updSpindle s s _ (fun _ h => h) (.refl s)
  clear_value t
  split
  · exact ht
  · split
    · exact kept_sectorStart s _ 0 (kept_spindle _ (fun _ => by simp [Spindle.DutyLawful]) ht)
    · exact ht

theorem judge_duty (x : Spindle) (h : x.DutyLawful) : x.judge.DutyLawful := by
  unfold Spindle.judge
  split <;> exact h

theorem kept_enterAtSpeed {a s : State} (locking : s.spindle.state = .locking) (h : a.Kept s) : a.Kept s.enterAtSpeed :=
  (kept_fault a _ _).2 (kept_spindle _ (fun k => by simpa [Spindle.DutyLawful, locking] using k) h)

theorem kept_speedLoss {a s : State} (atSpeed : s.spindle.state = .atSpeed) (h : a.Kept s) : a.Kept s.speedLoss := by
  refine kept_postBoth a _ _ (kept_raiseFlag a _ _ (kept_loadSpeedLoss a _ (kept_sessionSpeedLoss a _ ?_)))
  exact kept_spindle _ (fun k => by simpa [Spindle.DutyLawful, atSpeed] using k) h

theorem kept_speedReport {a s : State} (h : a.Kept s) : a.Kept s.speedReport := by
  unfold State.speedReport
  split
  · exact kept_enterAtSpeed (by simp_all) h
  · split
    · exact kept_speedLoss (by simp_all) h
    · exact h

theorem kept_indexConsequences {a s : State} (order : IndexOrder) (h : a.Kept s) :
    a.Kept (s.indexConsequences order) := by
  cases order with
  | reportFirst => exact kept_sectorStart a _ 0 (kept_indexWindowEnd a _ (kept_resumeSession a _ (kept_speedReport h)))
  | windowFirst => exact kept_sectorStart a _ 0 (kept_resumeSession a _ (kept_speedReport (kept_indexWindowEnd a _ h)))
  | startFirst => exact kept_speedReport (kept_sectorStart a _ 0 (kept_indexWindowEnd a _ h))

theorem kept_indexRegulated (s : State) (order : IndexOrder)
    (regulated : s.spindle.state = .locking ∨ s.spindle.state = .atSpeed) : s.Kept (s.indexRegulated order) := by
  have counted : s.Kept s.regulate.sessionIndex := (kept_updSession s _ _).2 (kept_regulate s regulated)
  unfold State.indexRegulated
  dsimp only
  split
  · exact (kept_updSession s _ _).2 counted
  · exact kept_indexConsequences order (kept_updSpindle s _ _ judge_duty counted)

theorem kept_spindleSupplyEdge {a s : State} (parked : Bool) (h : a.Kept s) : a.Kept (s.spindleSupplyEdge parked) := by
  unfold State.spindleSupplyEdge
  extract_lets _ _ t
  have ht : a.Kept t := (kept_seq a _ _).2 (kept_spindle _ (fun k => DutyLawful.same rfl rfl k) h)
  clear_value t
  split
  · split
    · exact kept_enterBraking a t ht
    · exact kept_spindle _ (fun _ => rfl) ht
  · exact ht

theorem sustains_cascade (s : State) : s.Sustains s.cascade := by
  unfold State.cascade
  extract_lets activeCause parked t1 t2 t3 t4 t5 t6 t7 t8 t9
  have h2 : t1.Kept t2 := kept_postBoth _ _ _ (kept_raiseFlag _ _ _ (.refl t1))
  have h5 : t1.Kept t5 := kept_spindleSupplyEdge _ (kept_posSupplyEdge _ _ (kept_dropGate _ _ h2))
  have h8 : t1.Kept t8 := kept_failWaitingRequest _ _ _ (kept_failSession _ _ _ _ (kept_custodySupplyEdge _ _ h5))
  have h9 : t1.Kept t9 := kept_failReady _ _ _ (kept_failReady _ _ _ h8)
  have h1 : s.Sustains t1 := sustains_pins_supply s s.pins _
  exact h1.trans (kept_edgeEndsPhase _ _ _ (kept_edgeEndsPhase _ _ _ h9)).sustains

/-! ### Every command -/

theorem kept_guard {s t : State} {c : Prop} [Decidable c] (h : s.Kept t) : s.Kept (if c then t else s) :=
  kept_ite s t s c h (.refl s)


theorem execPortReset_sustains (p : Port) (s t : State) (done : execPortReset p s = .next t) : s.Sustains t := by
  cases done
  exact State.Kept.sustains (kept_finish s _ (kept_portReset s s p (.refl s)))

theorem execPresenceLineLow_sustains (p : Port) (s t : State)
    (done : execPresenceLineLow p s = .next t) : s.Sustains t := by
  cases done
  exact State.Kept.sustains (kept_guard (kept_finish s _ (kept_portReset s _ p (kept_updCtx s s p _ (fun _ h => h)
      (.refl s)))))

theorem execPresenceLineHigh_sustains (p : Port) (s t : State)
    (done : execPresenceLineHigh p s = .next t) : s.Sustains t := by
  cases done
  exact State.Kept.sustains (kept_ite s _ _ _ (.refl s) (kept_updCtx s s p _ (fun _ h => h) (.refl s)))

theorem execBlockTimerExpiry_sustains (p : Port) (s t : State)
    (done : execBlockTimerExpiry p s = .next t) : s.Sustains t := by
  cases done
  exact State.Kept.sustains (kept_guard (kept_linkToIdle s s p (.refl s)))

theorem execDataPhaseGapTimeout_sustains (p : Port) (s t : State)
    (done : execDataPhaseGapTimeout p s = .next t) : s.Sustains t := by
  cases done
  exact State.Kept.sustains (kept_guard (kept_finish s _ (kept_timeOutPhase s s p (.refl s))))

theorem execStallTimerExpiry_sustains (p : Port) (s t : State)
    (done : execStallTimerExpiry p s = .next t) : s.Sustains t := by
  cases done
  exact State.Kept.sustains (kept_guard (kept_linkToIdle s s p (.refl s)))

theorem execResponseComplete_sustains (p : Port) (s t : State)
    (done : execResponseComplete p s = .next t) : s.Sustains t := by
  cases done
  exact State.Kept.sustains (kept_guard (kept_endOutbound s s p (.refl s)))

theorem execNoticeRecordTaken_sustains (p : Port) (s t : State)
    (done : execNoticeRecordTaken p s = .next t) : s.Sustains t := by
  cases done
  exact State.Kept.sustains (kept_guard (kept_endOutbound s s p (.refl s)))

theorem execNoticeRefill_sustains (p : Port) (s t : State) (done : execNoticeRefill p s = .next t) : s.Sustains t := by
  cases done
  exact State.Kept.sustains (kept_updCtx s s p _ (fun d h => d.refill_bounded h) (.refl s))

theorem execFetchDataComplete_sustains (p : Port) (s t : State)
    (done : execFetchDataComplete p s = .next t) : s.Sustains t := by
  cases done
  exact State.Kept.sustains (kept_guard (kept_endOutbound s s p (.refl s)))

theorem execWriteDataPhaseComplete_sustains (p : Port) (bytes : List Byte) (s t : State)
    (done : execWriteDataPhaseComplete p bytes s = .next t) : s.Sustains t := by
  obtain rfl := next_of_wf done
  split
  · exact State.Kept.sustains (kept_guard (kept_finish s _ (kept_endWritePhase s s p _ bytes (.refl s))))
  · exact State.Kept.sustains (.refl s)

theorem execMediaRecordPhaseComplete_sustains (p : Port) (bytes : List Byte) (s t : State)
    (done : execMediaRecordPhaseComplete p bytes s = .next t) : s.Sustains t := by
  obtain rfl := next_of_wf done
  split
  · exact State.Kept.sustains (kept_guard (kept_finish s _ (kept_endRecordPhase s s p _ _ (.refl s))))
  · exact State.Kept.sustains (.refl s)

theorem execUnknownCommand_sustains (p : Port) (code : Byte) (blk : Block) (s t : State)
    (done : execUnknownCommand p code blk s = .next t) : s.Sustains t := by
  obtain rfl := next_of_wf done
  exact sustains_command s p code 0 blk _ id fun h => nomatch h

theorem execStatus_sustains (p : Port) (blk : Block) (sensors : SensorReading) (s t : State)
    (done : execStatus p blk sensors s = .next t) : s.Sustains t := by
  cases done
  exact sustains_command s p _ _ blk _ _ fun _ =>
    (State.Kept.sustains (kept_restartLimit s s p (.refl s))).trans
      ((sustains_pins _ _).trans (State.Kept.sustains (kept_respondWith _ _ p _ _ _ _ (.refl _))))

theorem execFetchNotice_sustains (p : Port) (blk : Block) (s t : State)
    (done : execFetchNotice p blk s = .next t) : s.Sustains t := by
  cases done
  exact sustains_command s p _ _ blk _ _ fun _ => State.Kept.sustains (kept_answerNotice s _ p
      (kept_restartLimit s s p (.refl s)))

theorem execAcknowledgeConditions_sustains (p : Port) (blk : Block) (s t : State)
    (done : execAcknowledgeConditions p blk s = .next t) : s.Sustains t := by
  cases done
  exact sustains_command s p _ _ blk _ _ fun _ => State.Kept.sustains (kept_respond s _ p _ _ _ _
      (kept_updCtx s _ p _ (fun _ h => h) (kept_restartLimit s s p (.refl s))))

theorem execAcceptMedium_sustains (p : Port) (blk : Block) (s t : State)
    (done : execAcceptMedium p blk s = .next t) : s.Sustains t := by
  cases done
  exact sustains_command s p _ _ blk _ _ fun _ => State.Kept.sustains (kept_respond s _ p _ _ _ _
      (kept_updCtx s _ p _ (fun _ h => h) (kept_restartLimit s s p (.refl s))))

theorem execReserve_sustains (p : Port) (blk : Block) (s t : State)
    (done : execReserve p blk s = .next t) : s.Sustains t := by
  cases done
  exact sustains_command s p _ _ blk _ _ fun _ => State.Kept.sustains (kept_finish s _ (kept_respond s _ p _ _ _ _
    (kept_takeReservation s _ p _ _ (kept_restartLimit s s p (.refl s)))))

theorem execRelease_sustains (p : Port) (blk : Block) (s t : State)
    (done : execRelease p blk s = .next t) : s.Sustains t := by
  cases done
  exact sustains_command s p _ _ blk _ _ fun _ => State.Kept.sustains (kept_finish s _ (kept_respond s _ p _ _ _ _
    (kept_freeReservation s _ _ (kept_restartLimit s s p (.refl s)))))

theorem execLock_sustains (p : Port) (blk : Block) (s t : State)
    (done : execLock p blk s = .next t) : s.Sustains t := by
  cases done
  exact sustains_command s p _ _ blk _ _ fun _ => State.Kept.sustains (kept_respond s _ p _ _ _ _
      (kept_updCtx s _ p _ (fun _ h => h) (kept_restartLimit s s p (.refl s))))

theorem execUnlock_sustains (p : Port) (blk : Block) (s t : State)
    (done : execUnlock p blk s = .next t) : s.Sustains t := by
  cases done
  exact sustains_command s p _ _ blk _ _ fun _ => State.Kept.sustains (kept_respond s _ p _ _ _ _
      (kept_updCtx s _ p _ (fun _ h => h) (kept_restartLimit s s p (.refl s))))

theorem execSpinUp_sustains (p : Port) (blk : Block) (s t : State)
    (done : execSpinUp p blk s = .next t) : s.Sustains t := by
  cases done
  exact sustains_command s p _ _ blk _ _ fun _ => State.Kept.sustains (kept_finish s _ (kept_respond s _ p _ _ _ _
    (kept_spinRequest s _ (kept_updSpindle s _ _ (fun _ h => h) (kept_restartLimit s s p (.refl s))))))

theorem execSpinDown_sustains (p : Port) (blk : Block) (s t : State)
    (done : execSpinDown p blk s = .next t) : s.Sustains t := by
  cases done
  exact sustains_command s p _ _ blk _ _ fun _ => State.Kept.sustains (kept_finish s _ (kept_respond s _ p _ _ _ _
    (kept_updSpindle s _ _ (fun _ h => h) (kept_restartLimit s s p (.refl s)))))

theorem execRead_sustains (p : Port) (blk : Block) (s t : State)
    (done : execRead p blk s = .next t) : s.Sustains t := by
  cases done
  exact sustains_command s p _ _ blk _ _ fun passed => State.Kept.sustains (kept_finish s _
      (kept_respond s _ p _ _ _ _
    (kept_entryReady s _ p _ (kept_acceptTransfer s p .read blk passed))))

theorem execWrite_sustains (p : Port) (blk : Block) (s t : State)
    (done : execWrite p blk s = .next t) : s.Sustains t := by
  cases done
  exact sustains_command s p _ _ blk _ _ fun passed => State.Kept.sustains (kept_finish s _ (kept_beginPhase s _ p _ _
    (kept_acceptTransfer s p .write blk passed)))

theorem execVerify_sustains (p : Port) (blk : Block) (s t : State)
    (done : execVerify p blk s = .next t) : s.Sustains t := by
  cases done
  exact sustains_command s p _ _ blk _ _ fun passed => State.Kept.sustains (kept_finish s _
      (kept_respond s _ p _ _ _ _
    (kept_entryReady s _ p _ (kept_acceptTransfer s p .verify blk passed))))

theorem execFetchData_sustains (p : Port) (blk : Block) (s t : State)
    (done : execFetchData p blk s = .next t) : s.Sustains t := by
  cases done
  exact sustains_command s p _ _ blk _ _ fun _ => State.Kept.sustains (kept_answerFetchData s _ p _
      (kept_restartLimit s s p (.refl s)))

theorem execCancel_sustains (p : Port) (blk : Block) (s t : State)
    (done : execCancel p blk s = .next t) : s.Sustains t := by
  cases done
  exact sustains_command s p _ _ blk _ _ fun _ => State.Kept.sustains (kept_finish s _ (kept_answerCancel s _ p _
      (kept_restartLimit s s p (.refl s))))

theorem execEject_sustains (p : Port) (blk : Block) (s t : State)
    (done : execEject p blk s = .next t) : s.Sustains t := by
  cases done
  exact sustains_command s p _ _ blk _ _ fun _ => State.Kept.sustains (kept_finish s _ (kept_respond s _ p _ _ _ _
    (kept_acceptEject s _ p blk (kept_restartLimit s s p (.refl s)))))

theorem execReadMediaRecord_sustains (p : Port) (blk : Block) (s t : State)
    (done : execReadMediaRecord p blk s = .next t) : s.Sustains t := by
  cases done
  exact sustains_command s p _ _ blk _ _ fun _ => State.Kept.sustains (kept_respondWith s _ p _ _ _ _
      (kept_restartLimit s s p (.refl s)))

theorem execWriteMediaRecord_sustains (p : Port) (blk : Block) (s t : State)
    (done : execWriteMediaRecord p blk s = .next t) : s.Sustains t := by
  cases done
  exact sustains_command s p _ _ blk _ _ fun _ => State.Kept.sustains (kept_finish s _ (kept_beginPhase s _ p _ _
    (kept_acceptMaint s _ p _ _ _ (kept_restartLimit s s p (.refl s)))))

theorem execMapSpare_sustains (p : Port) (blk : Block) (s t : State)
    (done : execMapSpare p blk s = .next t) : s.Sustains t := by
  cases done
  exact sustains_command s p _ _ blk _ _ fun _ => State.Kept.sustains (kept_finish s _ (kept_respond s _ p _ _ _ _
    (kept_acceptMapSpare s _ p blk (kept_restartLimit s s p (.refl s)))))

theorem execFormatTrack_sustains (p : Port) (blk : Block) (s t : State)
    (done : execFormatTrack p blk s = .next t) : s.Sustains t := by
  cases done
  exact sustains_command s p _ _ blk _ _ fun _ => State.Kept.sustains (kept_finish s _ (kept_respond s _ p _ _ _ _
    (kept_acceptMaint s _ p _ _ _ (kept_restartLimit s s p (.refl s)))))

theorem execSetParameters_sustains (p : Port) (blk : Block) (s t : State)
    (done : execSetParameters p blk s = .next t) : s.Sustains t := by
  cases done
  exact sustains_command s p _ _ blk _ _ fun _ => State.Kept.sustains (kept_beginPhase s _ p _ _
      (kept_restartLimit s s p (.refl s)))

theorem execReadParameters_sustains (p : Port) (blk : Block) (s t : State)
    (done : execReadParameters p blk s = .next t) : s.Sustains t := by
  cases done
  exact sustains_command s p _ _ blk _ _ fun _ => State.Kept.sustains (kept_respondWith s _ p _ _ _ _
      (kept_restartLimit s s p (.refl s)))

theorem execIndexEvent_sustains (order : IndexOrder) (s t : State)
    (done : execIndexEvent order s = .next t) : s.Sustains t := by
  cases done
  split
  · exact State.Kept.sustains (.refl s)
  · exact State.Kept.sustains (kept_finish s _ (kept_indexStarting s))
  · exact State.Kept.sustains (kept_finish s _ (kept_indexRegulated s order (.inl ‹_›)))
  · exact State.Kept.sustains (kept_finish s _ (kept_indexRegulated s order (.inr ‹_›)))
  · exact State.Kept.sustains (kept_updSpindle s s _ (fun _ h => h) (.refl s))
  · exact State.Kept.sustains (.refl s)

theorem execSectorStartEvent_sustains (k : Nat) (s t : State)
    (done : execSectorStartEvent k s = .next t) : s.Sustains t := by
  obtain rfl := next_of_wf done
  exact State.Kept.sustains (kept_guard (kept_finish s _ (kept_sectorStart s _ k (kept_windowEnd s s (.refl s)))))

theorem execOperationEndPoint_sustains (header : HeaderReading) (data : DataReading) (s t : State)
    (done : execOperationEndPoint header data s = .next t) : s.Sustains t := by
  obtain rfl := next_of_wf done
  split
  · exact State.Kept.sustains (.refl s)
  · exact State.Kept.sustains (kept_guard (kept_finish s _ (kept_endByResult s s _ header data (.refl s))))

theorem execDiscardedEntryRemoval_sustains (p : Port) (s t : State)
    (done : execDiscardedEntryRemoval p s = .next t) : s.Sustains t := by
  cases done
  split
  · exact State.Kept.sustains (.refl s)
  · exact State.Kept.sustains (kept_finish s _ (kept_closeJudgement s _ (kept_removeEntry s _ p _
      (kept_emptySlots s s p _ (.refl s)))))

theorem execFirstIndexTimerExpiry_sustains (s t : State)
    (done : execFirstIndexTimerExpiry s = .next t) : s.Sustains t := by
  cases done
  exact State.Kept.sustains (kept_guard (kept_finish s _ (kept_spindleFault s s _ (.refl s))))

theorem execLockTimerExpiry_sustains (s t : State) (done : execLockTimerExpiry s = .next t) : s.Sustains t := by
  cases done
  exact State.Kept.sustains (kept_guard (kept_finish s _ (kept_spindleFault s s _ (.refl s))))

theorem execIndexAbsenceTimerExpiry_sustains (s t : State)
    (done : execIndexAbsenceTimerExpiry s = .next t) : s.Sustains t := by
  cases done
  exact State.Kept.sustains (kept_guard (kept_finish s _ (kept_spindleFault s s _ (.refl s))))

theorem execRegainTimerExpiry_sustains (s t : State) (done : execRegainTimerExpiry s = .next t) : s.Sustains t := by
  cases done
  exact State.Kept.sustains (kept_guard (kept_finish s _ (kept_spindleFault s s _ (.refl s))))

theorem execPendingFaultBrake_sustains (s t : State) (done : execPendingFaultBrake s = .next t) : s.Sustains t := by
  cases done
  exact State.Kept.sustains (kept_guard (kept_finish s _ (kept_enterBraking s s (.refl s))))

theorem execQuietTimerExpiry_sustains (s t : State) (done : execQuietTimerExpiry s = .next t) : s.Sustains t := by
  cases done
  exact State.Kept.sustains (kept_guard (kept_finish s _ (kept_enterStopped s s (.refl s))))

theorem execRestartOnStopped_sustains (s t : State) (done : execRestartOnStopped s = .next t) : s.Sustains t := by
  cases done
  exact State.Kept.sustains (kept_guard (kept_finish s _ (kept_spinRequest s _
      (kept_updSpindle s s _ (fun _ h => h) (.refl s)))))

theorem execIdleSecondElapsed_sustains (s t : State) (done : execIdleSecondElapsed s = .next t) : s.Sustains t := by
  cases done
  exact State.Kept.sustains (kept_guard (kept_finish s _ (kept_updSpindle s s _ (fun _ h => h) (.refl s))))

theorem execStandbyBrake_sustains (s t : State) (done : execStandbyBrake s = .next t) : s.Sustains t := by
  cases done
  exact State.Kept.sustains (kept_guard (kept_finish s _ (kept_enterBraking s s (.refl s))))

theorem execCoastingEnd_sustains (s t : State) (done : execCoastingEnd s = .next t) : s.Sustains t := by
  cases done
  exact State.Kept.sustains (kept_guard (kept_finish s _ (kept_enterBraking s s (.refl s))))

theorem execLoadTimerExpiry_sustains (s t : State) (done : execLoadTimerExpiry s = .next t) : s.Sustains t := by
  cases done
  exact State.Kept.sustains (kept_guard (kept_finish s _ (kept_custodyRecalSeen s _ (kept_beginRecalibration s _
      (.refl s)))))

theorem execWaitingTargetStart_sustains (s t : State) (done : execWaitingTargetStart s = .next t) : s.Sustains t := by
  cases done
  split
  · exact State.Kept.sustains (kept_guard (kept_finish s _ (kept_beginLoad s _ _ (.refl s))))
  · exact State.Kept.sustains (.refl s)

theorem execStepIntervalExpiry_sustains (sensor : TrackZeroReading) (s t : State)
    (done : execStepIntervalExpiry sensor s = .next t) : s.Sustains t := by
  cases done
  split
  · exact State.Kept.sustains (kept_guard (kept_finish s _ (kept_stepOn s s _ sensor (.refl s))))
  · exact State.Kept.sustains (.refl s)

theorem execCreepIntervalExpiry_sustains (sensor : TrackZeroReading) (s t : State)
    (done : execCreepIntervalExpiry sensor s = .next t) : s.Sustains t := by
  cases done
  split
  · exact State.Kept.sustains (kept_guard (kept_finish s _ (kept_creepOn s s _ sensor (.refl s))))
  · exact State.Kept.sustains (.refl s)

theorem execSettleTimerExpiry_sustains (s t : State) (done : execSettleTimerExpiry s = .next t) : s.Sustains t := by
  cases done
  exact State.Kept.sustains (kept_guard (kept_finish s _ (kept_settleEnd s s (.refl s))))

theorem execHeldRetractStart_sustains (s t : State) (done : execHeldRetractStart s = .next t) : s.Sustains t := by
  cases done
  exact State.Kept.sustains (kept_guard (kept_finish s _ (kept_answerAbandoned s _ _ (kept_beginRetract s _
      (.refl s)))))

theorem execSessionResume_sustains (s t : State) (done : execSessionResume s = .next t) : s.Sustains t := by
  cases done
  exact State.Kept.sustains (kept_guard (kept_finish s _ (kept_resumeSession s s (.refl s))))

theorem execArbiterChoice_sustains (s t : State) (done : execArbiterChoice s = .next t) : s.Sustains t := by
  cases done
  exact State.Kept.sustains (kept_guard (kept_finish s _ (kept_choose s s (.refl s))))

theorem execFormatPassStart_sustains (s t : State) (done : execFormatPassStart s = .next t) : s.Sustains t := by
  cases done
  exact State.Kept.sustains (kept_guard (show s.Kept _ from .refl s))

theorem execPresentSensorActive_sustains (cartridge : Medium) (s t : State)
    (done : execPresentSensorActive cartridge s = .next t) : s.Sustains t := by
  obtain ⟨wf, rfl⟩ := next_of_guard done
  split
  · exact State.Kept.sustains (.refl s)
  · dsimp only
    split
    · exact ⟨rfl, rfl, rfl, sound_medium s cartridge wf, id⟩
    · exact sustains_pins s _

theorem execPresentSensorInactive_sustains (s t : State)
    (done : execPresentSensorInactive s = .next t) : s.Sustains t := by
  cases done
  have pins := sustains_pins s { s.pins with present := false }
  split
  · exact pins.trans (State.Kept.sustains (kept_finish _ _ (kept_withdrawn _ _ (.refl _))))
  · split
    · exact pins.trans (State.Kept.sustains (kept_finish _ _ (kept_withdrawn _ _ (.refl _))))
    · exact pins
  · exact pins.trans (State.Kept.sustains (kept_finish _ _ (kept_completeRelease _ _ (.refl _))))
  · exact pins.trans (State.Kept.sustains (kept_finish _ _ (kept_completeRelease _ _ (.refl _))))
  · exact pins

theorem execDebounceTimerExpiry_sustains (s t : State) (done : execDebounceTimerExpiry s = .next t) : s.Sustains t := by
  cases done
  exact State.Kept.sustains (kept_guard (kept_finish s _ (kept_updCustody s s _ (fun _ => rfl) (.refl s))))

theorem execLatchSensorLatched_sustains (writeProtect : Bool) (s t : State)
    (done : execLatchSensorLatched writeProtect s = .next t) : s.Sustains t := by
  cases done
  have pins := sustains_pins s { s.pins with latch := true, writeProtect := writeProtect }
  dsimp only
  split
  · exact pins.trans (State.Kept.sustains (kept_finish _ _ (kept_latchConfirmed _ _ _ (.refl _))))
  · exact pins

theorem execLatchTimerExpiry_sustains (s t : State) (done : execLatchTimerExpiry s = .next t) : s.Sustains t := by
  cases done
  exact State.Kept.sustains (kept_guard (kept_finish s _ (kept_rejectMount s s _ (.refl s))))

theorem execLatchPulseEnd_sustains (s t : State) (done : execLatchPulseEnd s = .next t) : s.Sustains t := by
  cases done
  exact State.Kept.sustains (kept_guard (kept_updCustody s s _ (fun _ => rfl) (.refl s)))

theorem execMountStepLoading_sustains (s t : State) (done : execMountStepLoading s = .next t) : s.Sustains t := by
  cases done
  exact State.Kept.sustains (kept_guard (kept_finish s _ (kept_recalibrateRequest s _
      (kept_updCustody s s _ (fun _ => rfl) (.refl s)))))

theorem execDrainComplete_sustains (s t : State) (done : execDrainComplete s = .next t) : s.Sustains t := by
  cases done
  exact State.Kept.sustains (kept_guard (kept_finish s _ (kept_enterUnmounting s s (.refl s))))

theorem execUnmountStopRequest_sustains (s t : State) (done : execUnmountStopRequest s = .next t) : s.Sustains t := by
  cases done
  exact State.Kept.sustains (kept_guard (kept_finish s _ (kept_stopRequest s _
      (kept_updCustody s s _ (fun _ => rfl) (.refl s)))))

theorem execReleaseAttemptStart_sustains (s t : State) (done : execReleaseAttemptStart s = .next t) : s.Sustains t := by
  cases done
  have attempt : s.Sustains (if s.releasingDue then s.newAttempt else s) :=
    State.Kept.sustains (kept_guard (kept_newAttempt s s (.refl s)))
  generalize (if s.releasingDue then s.newAttempt else s) = u at attempt ⊢
  split
  · exact attempt.trans (sustains_updCustody _ _)
  · exact attempt

theorem execEjectPulseEnd_sustains (s t : State) (done : execEjectPulseEnd s = .next t) : s.Sustains t := by
  cases done
  split
  · exact sustains_updCustody s _
  · exact State.Kept.sustains (.refl s)

theorem execReleaseTimerExpiry_sustains (s t : State) (done : execReleaseTimerExpiry s = .next t) : s.Sustains t := by
  cases done
  dsimp only
  split
  · split
    · exact State.Kept.sustains (kept_enterJammed s s (.refl s))
    · split
      · exact (sustains_updCustody s _).trans (sustains_updCustody _ _)
      · exact sustains_updCustody s _
  · exact State.Kept.sustains (.refl s)

theorem execButtonDown_sustains (s t : State) (done : execButtonDown s = .next t) : s.Sustains t := by
  cases done
  split
  · exact State.Kept.sustains (.refl s)
  · exact (sustains_pins s _).trans (sustains_updCustody _ _)

theorem execButtonUp_sustains (s t : State) (done : execButtonUp s = .next t) : s.Sustains t := by
  cases done
  have pins := sustains_pins s { s.pins with button := false }
  dsimp only
  split
  · exact pins.trans (State.Kept.sustains (kept_finish _ _ (kept_shortPress _ _
      (kept_updCustody _ _ _ (fun _ => rfl) (.refl _)))))
  · exact pins

theorem execHoldTimerExpiry_sustains (s t : State) (done : execHoldTimerExpiry s = .next t) : s.Sustains t := by
  cases done
  exact State.Kept.sustains (kept_guard (kept_finish s _ (kept_longPress s _ (kept_updCustody s s _ (fun _ => rfl)
      (.refl s)))))

theorem execAttentionTimerExpiry_sustains (s t : State)
    (done : execAttentionTimerExpiry s = .next t) : s.Sustains t := by
  cases done
  exact State.Kept.sustains (kept_guard (kept_updCustody s s _ (fun _ => rfl) (.refl s)))

theorem execReservationIdleTimerExpiry_sustains (s t : State)
    (done : execReservationIdleTimerExpiry s = .next t) : s.Sustains t := by
  cases done
  exact State.Kept.sustains (kept_guard (kept_finish s _ (kept_freeReservation s s _ (.refl s))))

theorem execSupplyFallingEdge_sustains (s t : State) (done : execSupplyFallingEdge s = .next t) : s.Sustains t := by
  cases done
  have pins := sustains_pins s { s.pins with comparatorHigh := false }
  dsimp only
  split
  · exact pins.trans ((sustains_cascade _).trans (State.Kept.sustains (kept_finish _ _ (.refl _))))
  · exact pins
  · exact sustains_pins_supply s _ _

theorem execSupplyRisingEdge_sustains (s t : State) (done : execSupplyRisingEdge s = .next t) : s.Sustains t := by
  cases done
  have pins := sustains_pins s { s.pins with comparatorHigh := true }
  dsimp only
  split
  · exact sustains_pins_supply s _ _
  · exact pins
  · exact pins

theorem execRecoveryTimerExpiry_sustains (s t : State) (done : execRecoveryTimerExpiry s = .next t) : s.Sustains t := by
  cases done
  dsimp only
  split
  · exact (sustains_pins_supply s s.pins _).trans
      (State.Kept.sustains (kept_finish _ _ (kept_custodyRecovery _ _ (kept_postBoth _ _ _ (.refl _)))))
  · exact State.Kept.sustains (.refl s)

theorem execInboundByteTaken_sustains (p : Port) (byte : Byte) (s t : State)
    (done : execInboundByteTaken p byte s = .next t) : s.Sustains t := by
  cases done
  exact State.Kept.sustains (kept_guard (kept_takeByte s s p byte (.refl s)))

theorem execOutboundByteTaken_sustains (p : Port) (s t : State)
    (done : execOutboundByteTaken p s = .next t) : s.Sustains t := by
  cases done
  exact State.Kept.sustains (kept_guard (kept_updLink s s p _ (.refl s)))

theorem execDataFieldReached_sustains (header : HeaderReading) (s t : State)
    (done : execDataFieldReached header s = .next t) : s.Sustains t := by
  obtain rfl := next_of_wf done
  split
  · exact State.Kept.sustains (.refl s)
  · exact State.Kept.sustains (kept_guard (show s.Kept _ from .refl s))

theorem execCheckBytesRecorded_sustains (s t : State) (done : execCheckBytesRecorded s = .next t) : s.Sustains t := by
  cases done
  split
  · exact State.Kept.sustains (.refl s)
  · exact State.Kept.sustains (kept_guard (kept_setImage s s _ _ _ (.refl s)))

/-- Every command but the two that set time or the table. -/
theorem exec_sustains (c : Instr) (s t : State) (done : exec c s = .next t) (noReset : ∀ r, c ≠ .powerOnReset r)
    (noTable : ∀ p bytes, c ≠ .parameterPhaseComplete p bytes) : s.Sustains t := by
  cases c with
  | powerOnReset r => exact absurd rfl (noReset r)
  | parameterPhaseComplete p bytes => exact absurd rfl (noTable p bytes)
  | portReset p => exact execPortReset_sustains _ s t done
  | presenceLineLow p => exact execPresenceLineLow_sustains _ s t done
  | presenceLineHigh p => exact execPresenceLineHigh_sustains _ s t done
  | blockTimerExpiry p => exact execBlockTimerExpiry_sustains _ s t done
  | dataPhaseGapTimeout p => exact execDataPhaseGapTimeout_sustains _ s t done
  | stallTimerExpiry p => exact execStallTimerExpiry_sustains _ s t done
  | responseComplete p => exact execResponseComplete_sustains _ s t done
  | noticeRecordTaken p => exact execNoticeRecordTaken_sustains _ s t done
  | noticeRefill p => exact execNoticeRefill_sustains _ s t done
  | fetchDataComplete p => exact execFetchDataComplete_sustains _ s t done
  | writeDataPhaseComplete p bytes => exact execWriteDataPhaseComplete_sustains _ _ s t done
  | mediaRecordPhaseComplete p bytes => exact execMediaRecordPhaseComplete_sustains _ _ s t done
  | unknownCommand p code blk => exact execUnknownCommand_sustains _ _ _ s t done
  | status p blk sensors => exact execStatus_sustains _ _ _ s t done
  | fetchNotice p blk => exact execFetchNotice_sustains _ _ s t done
  | acknowledgeConditions p blk => exact execAcknowledgeConditions_sustains _ _ s t done
  | acceptMedium p blk => exact execAcceptMedium_sustains _ _ s t done
  | reserve p blk => exact execReserve_sustains _ _ s t done
  | release p blk => exact execRelease_sustains _ _ s t done
  | lock p blk => exact execLock_sustains _ _ s t done
  | unlock p blk => exact execUnlock_sustains _ _ s t done
  | spinUp p blk => exact execSpinUp_sustains _ _ s t done
  | spinDown p blk => exact execSpinDown_sustains _ _ s t done
  | read p blk => exact execRead_sustains _ _ s t done
  | write p blk => exact execWrite_sustains _ _ s t done
  | verify p blk => exact execVerify_sustains _ _ s t done
  | fetchData p blk => exact execFetchData_sustains _ _ s t done
  | cancel p blk => exact execCancel_sustains _ _ s t done
  | eject p blk => exact execEject_sustains _ _ s t done
  | readMediaRecord p blk => exact execReadMediaRecord_sustains _ _ s t done
  | writeMediaRecord p blk => exact execWriteMediaRecord_sustains _ _ s t done
  | mapSpare p blk => exact execMapSpare_sustains _ _ s t done
  | formatTrack p blk => exact execFormatTrack_sustains _ _ s t done
  | setParameters p blk => exact execSetParameters_sustains _ _ s t done
  | readParameters p blk => exact execReadParameters_sustains _ _ s t done
  | indexEvent order => exact execIndexEvent_sustains _ s t done
  | sectorStartEvent k => exact execSectorStartEvent_sustains _ s t done
  | operationEndPoint header data => exact execOperationEndPoint_sustains _ _ s t done
  | discardedEntryRemoval p => exact execDiscardedEntryRemoval_sustains _ s t done
  | firstIndexTimerExpiry => exact execFirstIndexTimerExpiry_sustains s t done
  | lockTimerExpiry => exact execLockTimerExpiry_sustains s t done
  | indexAbsenceTimerExpiry => exact execIndexAbsenceTimerExpiry_sustains s t done
  | regainTimerExpiry => exact execRegainTimerExpiry_sustains s t done
  | pendingFaultBrake => exact execPendingFaultBrake_sustains s t done
  | quietTimerExpiry => exact execQuietTimerExpiry_sustains s t done
  | restartOnStopped => exact execRestartOnStopped_sustains s t done
  | idleSecondElapsed => exact execIdleSecondElapsed_sustains s t done
  | standbyBrake => exact execStandbyBrake_sustains s t done
  | coastingEnd => exact execCoastingEnd_sustains s t done
  | loadTimerExpiry => exact execLoadTimerExpiry_sustains s t done
  | waitingTargetStart => exact execWaitingTargetStart_sustains s t done
  | stepIntervalExpiry sensor => exact execStepIntervalExpiry_sustains _ s t done
  | creepIntervalExpiry sensor => exact execCreepIntervalExpiry_sustains _ s t done
  | settleTimerExpiry => exact execSettleTimerExpiry_sustains s t done
  | heldRetractStart => exact execHeldRetractStart_sustains s t done
  | sessionResume => exact execSessionResume_sustains s t done
  | arbiterChoice => exact execArbiterChoice_sustains s t done
  | formatPassStart => exact execFormatPassStart_sustains s t done
  | presentSensorActive cartridge => exact execPresentSensorActive_sustains _ s t done
  | presentSensorInactive => exact execPresentSensorInactive_sustains s t done
  | debounceTimerExpiry => exact execDebounceTimerExpiry_sustains s t done
  | latchSensorLatched writeProtect => exact execLatchSensorLatched_sustains _ s t done
  | latchTimerExpiry => exact execLatchTimerExpiry_sustains s t done
  | latchPulseEnd => exact execLatchPulseEnd_sustains s t done
  | mountStepLoading => exact execMountStepLoading_sustains s t done
  | drainComplete => exact execDrainComplete_sustains s t done
  | unmountStopRequest => exact execUnmountStopRequest_sustains s t done
  | releaseAttemptStart => exact execReleaseAttemptStart_sustains s t done
  | ejectPulseEnd => exact execEjectPulseEnd_sustains s t done
  | releaseTimerExpiry => exact execReleaseTimerExpiry_sustains s t done
  | buttonDown => exact execButtonDown_sustains s t done
  | buttonUp => exact execButtonUp_sustains s t done
  | holdTimerExpiry => exact execHoldTimerExpiry_sustains s t done
  | attentionTimerExpiry => exact execAttentionTimerExpiry_sustains s t done
  | reservationIdleTimerExpiry => exact execReservationIdleTimerExpiry_sustains s t done
  | supplyFallingEdge => exact execSupplyFallingEdge_sustains s t done
  | supplyRisingEdge => exact execSupplyRisingEdge_sustains s t done
  | recoveryTimerExpiry => exact execRecoveryTimerExpiry_sustains s t done
  | inboundByteTaken p byte => exact execInboundByteTaken_sustains _ _ s t done
  | outboundByteTaken p => exact execOutboundByteTaken_sustains _ s t done
  | dataFieldReached header => exact execDataFieldReached_sustains _ s t done
  | checkBytesRecorded => exact execCheckBytesRecorded_sustains s t done

theorem execParameterPhaseComplete_keeps (p : Port) (bytes : List Byte) (s t : State)
    (done : execParameterPhaseComplete p bytes s = .next t) :
    t.time = s.time ∧ t.pending = s.pending ∧ (s.Sound → t.Sound) ∧
      (s.spindle.DutyLawful → t.spindle.DutyLawful) := by
  obtain rfl := next_of_wf done
  split
  · obtain ⟨time, pending, -, sound, duty⟩ := State.Kept.sustains
      (kept_finish _ _ (kept_respond _ _ p 0x30 0 .done []
        (.refl { s with params := paramsOf ((s.link p).received ++ bytes) })))
    exact ⟨time, pending, sound, duty⟩
  · exact ⟨rfl, rfl, id, id⟩

/-- The reset state, apart from what the reading and the mechanism give. -/
def State.resetBase (s : State) (r : ResetReading) : State :=
  { State.reset with
    pins := ⟨r.present, r.latched, r.writeProtect, r.comparatorHigh, r.buttonDown⟩
    portA := .reset r.presenceA
    portB := .reset r.presenceB
    supply := ⟨if r.comparatorHigh then .high else .low, none⟩
    medium := if r.present then s.dropGate.medium else []
    carriage := s.carriage
    freeCount := s.dropGate.freeCount
    pending := s.pending }

theorem execPowerOnReset_eq (r : ResetReading) (s : State) :
    execPowerOnReset r s = .next ((s.resetBase r).resetCustody r) := rfl

theorem resetContext_bounded (present : Bool) : (PortContext.reset present).Bounded :=
  ⟨Nat.zero_le _, Nat.zero_le _, List.nodup_nil, .nil⟩

theorem resetBase_sound (s : State) (r : ResetReading) (h : s.Sound) : (s.resetBase r).Sound := by
  have cartridge : sparseWf SectorImage.unrecorded (s.resetBase r).medium = true := by
    simp only [State.resetBase]
    split
    · exact ((kept_dropGate s s (.refl s)).sustains.sound h).1.2
    · rfl
  refine ⟨⟨rfl, cartridge⟩, resetContext_bounded _, resetContext_bounded _, ⟨rfl, rfl⟩, ?_, ?_⟩
  · show State.reset.heldBuffers .a ≤ 12
    decide
  · show State.reset.heldBuffers .b ≤ 12
    decide

theorem execPowerOnReset_keeps (r : ResetReading) (s t : State) (done : execPowerOnReset r s = .next t) :
    t.time = 0 ∧ t.pending = s.pending ∧ (s.Sound → t.Sound) ∧ t.spindle.DutyLawful := by
  cases done
  obtain ⟨time, pending, -, sound, duty⟩ :=
    (kept_resetCustody _ _ r (.refl (s.resetBase r))).sustains
  exact ⟨time, pending, fun h => sound (resetBase_sound s r h), duty rfl⟩

/-- Every command keeps the structural and the duty laws. -/
theorem exec_keeps_laws (c : Instr) (s t : State) (done : exec c s = .next t) :
    (s.Sound → t.Sound) ∧ (s.spindle.DutyLawful → t.spindle.DutyLawful) := by
  by_cases reset : ∃ r, c = .powerOnReset r
  · obtain ⟨r, rfl⟩ := reset
    obtain ⟨-, -, sound, duty⟩ := execPowerOnReset_keeps r s t done
    exact ⟨sound, fun _ => duty⟩
  · by_cases table : ∃ p bytes, c = .parameterPhaseComplete p bytes
    · obtain ⟨p, bytes, rfl⟩ := table
      obtain ⟨-, -, sound, duty⟩ := execParameterPhaseComplete_keeps p bytes s t done
      exact ⟨sound, duty⟩
    · have kept := exec_sustains c s t done (fun r h => reset ⟨r, h⟩) (fun p bytes h => table ⟨p, bytes, h⟩)
      exact ⟨kept.sound, kept.duty⟩

/-- What every command keeps, and a tick and the queue leave, holds after a step. -/
theorem step_induction {P : State → Prop} (tick : ∀ s, P s → P s.tick)
    (queue : ∀ s rest, P s → P { s with pending := rest })
    (command : ∀ c s t, P s → exec c s = .next t → P t) (s t : State) (h : P s) (done : step s = .next t) : P t := by
  unfold step at done
  split at done
  · unfold State.idle at done
    split at done
    · exact command _ s t h done
    · cases done
      exact tick s h
  · exact command _ _ t (queue s _ h) done

/-- Settles O3: no command breaks the structural laws, and neither a tick nor the queue is spoken of by them. -/
theorem stepKeepsStructure : Obligations.StepKeepsStructure := fun s t =>
  step_induction (fun _ h => h) (fun _ _ h => h) (fun c s t h done => (exec_keeps_laws c s t done).1 h) s t

/-- Settles O5, in the same way. -/
theorem stepKeepsDutyLaw : Obligations.StepKeepsDutyLaw := fun s t =>
  step_induction (P := fun s => s.spindle.DutyLawful) (fun _ h => h) (fun _ _ h => h)
    (fun c s t h done => (exec_keeps_laws c s t done).2 h) s t

/-- Settles O8. -/
theorem parametersChangeAtTwoCommands : Obligations.ParametersChangeAtTwoCommands :=
  fun c s t done noReset noTable => (exec_sustains c s t done noReset noTable).params

/-- Settles O7: the two commands that set time or the table, and every other one. -/
theorem onlyResetSetsDriveTime : Obligations.OnlyResetSetsDriveTime := by
  intro c s t done
  by_cases reset : ∃ r, c = .powerOnReset r
  · obtain ⟨r, rfl⟩ := reset
    obtain ⟨time, pending, -, -⟩ := execPowerOnReset_keeps r s t done
    exact ⟨pending, fun _ => time, fun noReset => absurd rfl (noReset r)⟩
  · refine ⟨?_, fun h => absurd h reset, fun noReset => ?_⟩ <;>
      by_cases table : ∃ p bytes, c = .parameterPhaseComplete p bytes
    · obtain ⟨p, bytes, rfl⟩ := table
      exact (execParameterPhaseComplete_keeps p bytes s t done).2.1
    · exact (exec_sustains c s t done (fun r h => reset ⟨r, h⟩) (fun p bytes h => table ⟨p, bytes, h⟩)).pending
    · obtain ⟨p, bytes, rfl⟩ := table
      exact (execParameterPhaseComplete_keeps p bytes s t done).1
    · exact (exec_sustains c s t done noReset (fun p bytes h => table ⟨p, bytes, h⟩)).time

end Sys2Proof.Machine
end

section
/-! SUPPORT. What the blocks' shared operations can write. A predicate on states that is not disturbed by a handful of
plain updates (`BookClosed`, `RejectClosed`, `FailClosed`, `DriveClosed`: each speaks of more blocks) is not disturbed by
the operations made of them. Proved once for every such predicate, and used for each thing an operation leaves alone. -/

namespace Sys2Proof.Machine

/-! ### Contexts, apart from their books -/

/-- `c` is `d`, but for its queue, its maintenance record and its notices. -/
def PortContext.Aside (d c : PortContext) : Prop :=
  ∃ queue maint notices pendingSet held, c = { d with
    queue := queue, maint := maint, notices := notices, pendingSet := pendingSet, held := held }

theorem PortContext.Aside.refl (c : PortContext) : c.Aside c := ⟨_, _, _, _, _, rfl⟩

theorem PortContext.Aside.fields {d c : PortContext} (h : d.Aside c) :
    c.linkPresent = d.linkPresent ∧ c.acknowledged = d.acknowledged ∧ c.lockHeld = d.lockHeld ∧
      c.conditions = d.conditions ∧ c.lastRefusal = d.lastRefusal ∧ c.link = d.link := by
  obtain ⟨_, _, _, _, _, rfl⟩ := h
  exact ⟨rfl, rfl, rfl, rfl, rfl, rfl⟩

theorem PortContext.aside_post (c : PortContext) (n : Notice) : c.Aside (c.post n) := by
  unfold PortContext.post
  split
  · exact .refl c
  · split <;> exact ⟨_, _, _, _, _, rfl⟩

theorem PortContext.aside_placeTransfer (c : PortContext) (tag : Byte) : c.Aside (c.placeTransfer tag) := by
  unfold PortContext.placeTransfer
  split
  · exact .refl c
  · split
    · exact .refl c
    · split <;> exact ⟨_, _, _, _, _, rfl⟩

theorem PortContext.aside_placeMaint (c : PortContext) : c.Aside c.placeMaint := by
  unfold PortContext.placeMaint
  split
  · exact .refl c
  · split
    · exact .refl c
    · split <;> exact ⟨_, _, _, _, _, rfl⟩

theorem foldl_closed {α : Type} {P : State → Prop} (l : List α) {f : State → α → State}
    (step : ∀ u x, P u → P (f u x)) {s : State} (h : P s) : P (l.foldl f s) := by
  induction l generalizing s with
  | nil => exact h
  | cons x rest ih => exact ih (step s x h)

theorem ite_closed {P : State → Prop} {c : Prop} [Decidable c] {x y : State} (hx : P x) (hy : P y) :
    P (if c then x else y) := by
  split
  · exact hx
  · exact hy

/-! ### The books: sessions, slots, queues, buffers, notices -/

/-- `P` is not disturbed by the books of the Session Controller, the Request Queues and the Notice Units. -/
structure BookClosed (P : State → Prop) : Prop where
  session : ∀ s x, P s → P { s with session := x }
  slots : ∀ s x, P s → P { s with slots := x }
  pool : ∀ s x, P s → P { s with pool := x }
  waiting : ∀ s, P s → P s.dropWaiting
  context : ∀ s p c, (s.ctx p).Aside c → P s → P (s.setCtx p c)

namespace BookClosed

variable {P : State → Prop} (C : BookClosed P) {s : State} (h : P s)
include C h

theorem updCtx (p : Port) {f : PortContext → PortContext} (hf : ∀ c : PortContext, c.Aside (f c)) : P (s.updCtx p f) :=
  C.context s p _ (hf _) h

theorem updBoth {f : PortContext → PortContext} (hf : ∀ c : PortContext, c.Aside (f c)) : P (s.updBoth f) :=
  C.updCtx (C.updCtx h .a hf) .b hf

theorem updEntry (p : Port) (tag : Byte) (f : Entry → Entry) : P (s.updEntry p tag f) :=
  C.updCtx h p fun _ => ⟨_, _, _, _, _, rfl⟩

theorem dropEntry (p : Port) (tag : Byte) : P (s.dropEntry p tag) := C.updCtx h p fun _ => ⟨_, _, _, _, _, rfl⟩

theorem post (p : Port) (b : NoticeBody) : P (s.post p b) := C.updCtx h p fun c => c.aside_post _

theorem postBoth (b : NoticeBody) : P (s.postBoth b) := C.updBoth h fun c => c.aside_post _

theorem updSession (f : Session → Session) : P (s.updSession f) := C.session s _ h

theorem mapSlots (f : Slot → Slot) : P (s.mapSlots f) := C.slots s _ h

theorem setSlot (k : Nat) (x : Slot) : P (s.setSlot k x) := C.slots s _ h

theorem assignBuffers (ids : List Nat) (holder : Option Port) : P (s.assignBuffers ids holder) := C.pool s _ h

theorem emptySlots (p : Port) (tag : Byte) : P (s.emptySlots p tag) := C.slots s _ h

theorem completeEntry (p : Port) (tag : Byte) (o : XferOutcome) : P (s.completeEntry p tag o) := by
  unfold State.completeEntry
  split
  · exact h
  · have recorded (f : Entry → Entry) := C.updEntry h p tag f
    exact C.updCtx (ite_closed (C.pool _ _ (recorded _)) (recorded _)) p fun c => c.aside_placeTransfer tag

theorem removeEntry (p : Port) (tag : Byte) : P (s.removeEntry p tag) := by
  unfold State.removeEntry
  split
  · exact h
  · exact C.pool _ _ (C.dropEntry h p tag)

/-! #### Joining, arming, close -/

theorem armEntry (p : Port) (tag : Byte) : P (s.armEntry p tag) := by
  unfold State.armEntry
  split
  · exact h
  · exact C.slots _ _ (C.updEntry h p tag _)

theorem judgeJoin (p : Port) (tag : Byte) : P (s.judgeJoin p tag) := by
  unfold State.judgeJoin
  split
  · split
    · exact C.armEntry (C.updEntry h p tag _) p tag
    · exact h
  · exact h

theorem judgeJoins : P s.judgeJoins := by
  unfold State.judgeJoins
  exact foldl_closed (P := P) _ (fun _ tag hu => C.judgeJoin hu .b tag)
    (foldl_closed (P := P) _ (fun _ tag hu => C.judgeJoin hu .a tag) h)

theorem closeSession : P s.closeSession := C.session _ none (C.waiting s h)

theorem closeJudgement : P s.closeJudgement := by
  have judged := C.judgeJoins h
  unfold State.closeJudgement
  dsimp only
  split
  · exact judged
  · exact ite_closed (C.closeSession judged) judged

theorem armCandidates : P s.armCandidates := by
  unfold State.armCandidates
  exact foldl_closed (P := P) _ (fun _ p hu => foldl_closed (P := P) _ (fun _ e hv => C.armEntry hv p e.tag) hu) h

theorem armDrive : P s.armDrive := by
  unfold State.armDrive
  split
  · exact ite_closed h (C.slots _ _ h)
  · exact h

theorem armingPass : P s.armingPass := by
  unfold State.armingPass
  split
  · exact h
  · have serving (f : Session → Session) := C.updSession h f
    have armed (f g : Session → Session) (c : Prop) [Decidable c] :
        P (if c then (s.updSession f).armDrive else (s.updSession g).armCandidates.judgeJoins) :=
      ite_closed (C.armDrive (serving f)) (C.judgeJoins (C.armCandidates (serving g)))
    exact ite_closed (C.closeJudgement (armed _ _ _)) (armed _ _ _)

theorem resumeSession : P s.resumeSession := by
  unfold State.resumeSession
  split
  · exact h
  · exact ite_closed (C.closeJudgement (C.slots _ _ (C.session _ _ h))) (C.session _ _ h)

/-! #### Cancellation and the answers to the session's seek -/

theorem cancelEntry (p : Port) (tag : Byte) : P (s.cancelEntry p tag) := by
  unfold State.cancelEntry
  split
  · exact h
  · exact ite_closed h (ite_closed (C.updEntry (C.mapSlots h _) p tag _)
      (C.closeJudgement (C.completeEntry (C.mapSlots h _) p tag _)))

theorem cancelReady (p : Port) (pick : Entry → Bool) : P (s.cancelReady p pick) := by
  unfold State.cancelReady
  exact foldl_closed (P := P) _ (fun _ e hu => C.completeEntry hu p e.tag _) h

theorem cancelInSession (p : Port) (pick : Entry → Bool) : P (s.cancelInSession p pick) := by
  unfold State.cancelInSession
  exact foldl_closed (P := P) _ (fun _ e hu => C.cancelEntry hu p e.tag) h

theorem cancelAll (pick : Entry → Bool) : P (s.cancelAll pick) :=
  C.cancelInSession (C.cancelInSession (C.cancelReady (C.cancelReady h .a pick) .b pick) .a pick) .b pick

theorem sessionSeekDone : P s.sessionSeekDone := by
  have answered (f : Session → Session) := C.updSession h f
  unfold State.sessionSeekDone
  split
  · exact h
  · dsimp only
    split
    · exact C.closeJudgement (answered _)
    · split
      · exact C.armingPass (answered _)
      · exact answered _

theorem sessionSeekAbandoned : P s.sessionSeekAbandoned := by
  unfold State.sessionSeekAbandoned
  split
  · exact h
  · exact ite_closed (C.closeJudgement (C.updSession h _)) (C.updSession h _)

theorem discardWaiting : P s.discardWaiting := ite_closed (C.sessionSeekAbandoned (C.waiting s h)) h

theorem judgeCompletion (p : Port) (tag : Byte) : P (s.judgeCompletion p tag) := by
  unfold State.judgeCompletion
  split
  · exact h
  · split
    · exact h
    · exact C.closeJudgement (C.completeEntry (C.emptySlots h p tag) p tag _)

theorem failEntry (p : Port) (e : Entry) (c : Cause) : P (s.failEntry p e c) :=
  ite_closed h (ite_closed (C.completeEntry (C.emptySlots h p _) p _ _)
    (ite_closed (C.completeEntry (C.emptySlots h p _) p _ _) (C.completeEntry h p _ _)))

theorem failEntries (c : Cause) : P (s.failEntries c) := by
  unfold State.failEntries
  exact foldl_closed (P := P) _ (fun _ p hu => foldl_closed (P := P) _ (fun _ e hv => C.failEntry hv p e c) hu) h

end BookClosed

/-! ### A mount's rejection -/

/-- `P` is not disturbed by the books, by custody's record and the locks, nor by a retract request. -/
structure RejectClosed (P : State → Prop) : Prop extends BookClosed P where
  custody : ∀ s x, P s → P { s with custody := x }
  locks : ∀ s, P s → P s.clearLocks
  retract : ∀ s, P s → P s.retractRequest

namespace RejectClosed

variable {P : State → Prop} (C : RejectClosed P) {s : State} (h : P s)
include C h

theorem updCustody (f : Custody → Custody) : P (s.updCustody f) := C.custody s _ h

theorem enterUnmounting : P s.enterUnmounting := C.retract _ (C.updCustody h _)

theorem rejectMount (r : RejectReason) : P (s.rejectMount r) :=
  C.enterUnmounting (C.postBoth (C.locks _ (C.updCustody h _)) _)

end RejectClosed

/-! ### Failures: the drive-owned request, the operation, the session -/

/-- `P` is not disturbed by a rejection, a drive-owned request and its commit, an operation's end and a dropped gate. -/
structure FailClosed (P : State → Prop) : Prop extends RejectClosed P where
  driveReq : ∀ s x, P s → P { s with driveReq := x }
  copy : ∀ s x, P s → P { s with copy := x }
  gate : ∀ s, P s → P s.dropGate
  work : ∀ s op pass, P s → P { s with seq := { s.seq with op := op, pass := pass } }

namespace FailClosed

variable {P : State → Prop} (C : FailClosed P) {s : State} (h : P s)
include C h

theorem commitRecord (starting : StartingCustody) (r : MediaRecord) : P (s.commitRecord starting r) := by
  unfold State.commitRecord
  split
  · exact C.cancelAll (C.postBoth (C.updCustody (C.copy _ _ (C.updCustody h _)) _) _) _
  · exact h
  · exact C.copy s _ h

theorem commit (m : Maint) : P (s.commit m) := by
  unfold State.commit
  dsimp only
  split
  · exact h
  · exact C.commitRecord h _ _
  · exact C.copy s _ h

theorem maintenanceEnd (p : Port) (o : DriveOutcome) : P (s.maintenanceEnd p o) := by
  unfold State.maintenanceEnd
  split
  · exact h
  · next m _ =>
    have committed : P (match o with | .done => s.commit m | .failed _ => s) := by
      split
      · exact C.commit h m
      · exact h
    refine ite_closed (C.updCtx committed p fun _ => ⟨_, _, _, _, _, rfl⟩) (C.updCtx committed p fun c => ?_)
    obtain ⟨_, _, _, _, _, placed⟩ := PortContext.aside_placeMaint { c with maint := some _ }
    exact ⟨_, _, _, _, _, placed⟩

theorem reportDrive {o : DriveOutcome} (judge : ∀ u, P u → P (u.recordReadJudgement o)) : P (s.reportDrive o) := by
  unfold State.reportDrive
  split
  · exact h
  · have told := C.mapSlots (C.driveReq s none h) fun x => if x.owner == some .drive then Slot.blank else x
    dsimp only
    split
    · exact judge _ told
    · exact C.maintenanceEnd told _ _

/-- A record read that fails for the speed rejects the mount, or has no effect (R100). -/
theorem recordRead_speed : P (s.recordReadJudgement (.failed .speed)) := by
  unfold State.recordReadJudgement
  refine ite_closed ?_ h
  split
  · exact C.rejectMount h _
  · exact C.rejectMount h _

theorem failSession {cause activeCause : Cause} (judge : ∀ u, P u → P (u.recordReadJudgement (.failed cause)))
    (judgeActive : ∀ u, P u → P (u.recordReadJudgement (.failed activeCause))) :
    P (s.failSession cause activeCause) := by
  unfold State.failSession
  split
  · exact h
  · extract_lets t1 _ t2 t3 t4 t5 t6 t7
    have h3 : P t3 := C.updSession (C.work _ none none (C.gate s h)) _
    have h5 : P t5 := C.failEntries (C.mapSlots h3 _) _
    have h6 : P t6 := by
      refine ite_closed (C.reportDrive h5 ?_) h5
      unfold State.driveCause
      split
      · exact judgeActive
      · exact judge
    exact C.closeJudgement (ite_closed (C.updSession (C.waiting _ h6) _) h6)

end FailClosed

end Sys2Proof.Machine
end


section
/-! SUPPORT. A predicate that speaks of little of the drive (`DriveClosed`): it is not disturbed by any operation that
leaves a gate that is off as it is, and writes no more than its own port's context besides the books. -/

namespace Sys2Proof.Machine

/-- `P` is not disturbed by what a link's own command reads and writes: the port's context, the buffers, the pins and
the reservation's timer. -/
structure StationClosed (p : Port) (P : State → Prop) : Prop where
  pins : ∀ s x, P s → P { s with pins := x }
  ram : ∀ s x, P s → P { s with ram := x }
  pool : ∀ s x, P s → P { s with pool := x }
  station : ∀ s c, P s → P (s.setCtx p c)
  reservation : ∀ s x, P s → P { s with reservation := x }

namespace StationClosed

variable {p : Port} {P : State → Prop} (C : StationClosed p P) {s : State} (h : P s)
include C h

theorem updStation (f : PortContext → PortContext) : P (s.updCtx p f) := C.station s _ h

theorem respond (code tag : Byte) (o : Outcome) (detail : List Byte) : P (s.respond p code tag o detail) := by
  unfold State.respond State.updLink
  exact C.updStation (C.updStation h _) _

theorem respondWith (code tag : Byte) (bytes : List Byte) (work : LinkWork) :
    P (s.respondWith p code tag bytes work) := by
  unfold State.respondWith State.updLink
  exact C.updStation h _

theorem beginPhase (length : Nat) (work : LinkWork) : P (s.beginPhase p length work) := by
  unfold State.beginPhase State.updLink
  exact C.updStation h _

theorem restartLimit (q : Port) : P (s.restartLimit q) := by
  obtain ⟨r, hr⟩ := restartLimit_frame s q
  rw [hr]
  exact C.reservation s r h

theorem command (code tag : Byte) (blk : Block) (checks : List (Bool × Outcome)) {accept : State → State}
    (accepted : ∀ u, P u → P (accept u)) : P (s.command p code tag blk checks accept) := by
  have limit := C.restartLimit h p
  unfold State.command
  split
  · split
    · exact C.respond limit _ _ _ _
    · exact accepted _ limit
  · exact h

theorem answerNotice : P (s.answerNotice p) := by
  unfold State.answerNotice
  split <;> exact C.updStation h _

theorem answerFetchData (tag : Byte) : P (s.answerFetchData p tag) := by
  have answered (o : Outcome) := C.respond h 0x1B tag o []
  unfold State.answerFetchData
  split
  · exact answered _
  · exact ite_closed (answered _) (ite_closed (C.respondWith h _ _ _ _) (answered _))

theorem linkToIdle : P (s.linkToIdle p) := by
  unfold State.linkToIdle State.updLink
  exact C.updStation h _

theorem storePhase (bufs : List Nat) (i : Nat) (l : List Byte) : P (s.storePhase bufs i l) := by
  induction l generalizing s i with
  | nil => exact h
  | cons b rest ih => exact ih (C.ram s _ h) (i + 1)

theorem removeEntry (tag : Byte) : P (s.removeEntry p tag) := by
  unfold State.removeEntry
  split
  · exact h
  · exact C.pool _ _ (C.updStation h _)

theorem endOutbound : P (s.endOutbound p) := by
  have completed : P (s.completeOutbound p) := by
    unfold State.completeOutbound
    split
    · exact C.updStation h _
    · unfold State.fetchDataDone
      split
      · exact h
      · exact ite_closed (C.removeEntry h _) (C.updStation (C.pool s _ h) _)
    · exact h
  unfold State.endOutbound State.updLink
  exact C.updStation completed _

theorem takeByte (b : Byte) : P (s.takeByte p b) := by
  have linked {u : State} (hu : P u) (f : Link → Link) : P (u.updLink p f) := C.updStation hu _
  unfold State.takeByte
  dsimp only
  split
  · exact linked h _
  · exact ite_closed (linked h _) h
  · refine ite_closed (linked ?_ _) h
    split
    · split
      · exact C.storePhase h _ _ _
      · exact h
    · exact linked h _
  · exact linked h _
  · exact linked h _

end StationClosed

/-- `P` is not disturbed by the books, by the mechanism's blocks, by a gate that drops, nor by what the station of port
`p` has in its context. -/
structure DriveClosed (p : Port) (P : State → Prop) : Prop extends StationClosed p P where
  supply : ∀ s x, P s → P { s with supply := x }
  params : ∀ s x, P s → P { s with params := x }
  spindle : ∀ s x, P s → P { s with spindle := x }
  heads : ∀ s x c, P s → P { s with pos := x, carriage := c }
  current : ∀ s k, P s → P { s with seq := { s.seq with current := k } }
  work : ∀ s op pass, P s → P { s with seq := { s.seq with op := op, pass := pass } }
  gateOff : ∀ s, P s → P { s with seq := { s.seq with gate := false } }
  gate : ∀ s, P s → P s.dropGate
  formatted : ∀ s, P s → P s.recordFormatted
  free : ∀ s, P s → P s.countFree
  session : ∀ s x, P s → P { s with session := x }
  slots : ∀ s x, P s → P { s with slots := x }
  turn : ∀ s x, P s → P { s with turn := x }
  driveReq : ∀ s x, P s → P { s with driveReq := x }
  context : ∀ s q c, (s.ctx q).Aside c → P s → P (s.setCtx q c)
  flags : ∀ s f, P s → P (s.raiseFlag f)
  custody : ∀ s x, P s → P { s with custody := x }
  copy : ∀ s x, P s → P { s with copy := x }
  outstanding : ∀ s x y, P s → P { s with faultOutstanding := x, recalOutstanding := y }

namespace DriveClosed

variable {p : Port} {P : State → Prop} (C : DriveClosed p P) {s : State} (h : P s)

include C in
theorem books : BookClosed P where
  session := C.session
  slots := C.slots
  pool := C.pool
  waiting _ h := ite_closed (C.heads _ _ _ h) h
  context := C.context

include C h

theorem updPos (f : Positioner → Positioner) : P (s.updPos f) := C.heads s _ _ h

theorem updSpindle (f : Spindle → Spindle) : P (s.updSpindle f) := C.spindle s _ h

theorem updCustody (f : Custody → Custody) : P (s.updCustody f) := C.custody s _ h

/-! ### The spindle -/

theorem spinRequest : P s.spinRequest := by
  have changed (f : Spindle → Spindle) := C.updSpindle h f
  unfold State.spinRequest
  split
  · exact h
  · split
    · exact changed _
    · exact h
    · exact ite_closed (changed _) h
    · exact ite_closed (changed _) h
    · exact changed _
    · exact h

theorem enterBraking : P s.enterBraking := by
  have braked : P { s with spindle := { s.spindle.stopTimers with
      state := .braking, duty := 0, quietTimer := s.startTimer 400000, faultPending := false
      standbyStop := false }, seq := { s.seq with current := none } } := C.spindle _ _ (C.current s none h)
  exact ite_closed (C.spinRequest braked) braked

theorem enterStopped : P s.enterStopped := ite_closed (C.spinRequest (C.updSpindle h _)) (C.updSpindle h _)

/-! ### The positioner -/

theorem pulse (f : Profile) (wait : Nat) : P (s.pulse f wait) := C.heads s _ _ h

theorem startMove (f : Profile) : P (s.startMove f) := ite_closed (C.updPos h _) (C.pulse h _ _)

theorem setUncertain : P s.setUncertain := ite_closed (C.flags _ _ (C.updPos h _)) h

theorem beginRetract : P s.beginRetract := C.startMove (C.updPos h _) _

theorem beginSeek (t : Nat) : P (s.beginSeek t) := ite_closed (C.updPos (C.updPos h _) _) (C.startMove (C.updPos h _) _)

theorem beginCreep : P s.beginCreep := C.updPos h _

theorem beginRecalibration : P s.beginRecalibration :=
  ite_closed (C.startMove (C.updPos h _) _) (C.beginCreep (C.updPos h _))

theorem seekRequest (t : Nat) : P (s.seekRequest t) := by
  have asked (f : Positioner → Positioner) := C.updPos h f
  unfold State.seekRequest
  split
  · exact ite_closed (C.beginSeek (asked _) t) (C.beginRecalibration (C.updPos (asked _) _))
  · exact ite_closed (C.updPos (asked _) _) (C.updPos (asked _) _)
  · exact h

theorem retractRequest : P s.retractRequest := by
  have moved (f : Positioner → Positioner) := C.updPos h f
  unfold State.retractRequest
  split
  · exact C.books.discardWaiting h
  · exact ite_closed (C.books.sessionSeekAbandoned (moved _)) (moved _)
  · exact C.beginRetract h
  · exact moved _
  · exact moved _
  · exact moved _
  · exact h
  · exact h

theorem sensorFound : P s.sensorFound := by
  have found : P { s with
      pos := { s.pos with counter := 0, confidence := .known, profile := none, stepTimer := none }
      recalOutstanding := false } := by
    exact C.heads _ _ s.carriage (C.outstanding s s.faultOutstanding false h)
  unfold State.sensorFound
  dsimp only
  split
  · exact found
  · split
    · exact C.beginSeek found _
    · exact C.updPos found _

/-! ### What ends most steps -/

theorem takeStandby : P s.takeStandby := ite_closed (C.beginRetract (C.updSpindle h _)) (C.updSpindle h _)

theorem judgeIdle : P s.judgeIdle := by
  have started : P (if s.spindle.idleTimer.isSome then s
      else s.updSpindle fun x => { x with idleCount := 0, idleTimer := s.startTimer 1000000 }) :=
    ite_closed h (C.updSpindle h _)
  exact ite_closed (ite_closed (C.takeStandby started) started) (C.updSpindle h _)

theorem finish : P s.finish := ite_closed (C.judgeIdle h) (C.gate _ (C.judgeIdle h))

/-! ### Reservation and custody -/

omit h in
theorem rejects (noLock : ∀ s, P s → P s.clearLocks) : RejectClosed P where
  toBookClosed := C.books
  custody := C.custody
  locks := noLock
  retract _ h := C.retractRequest h

theorem freeReservation (b : Option NoticeBody) : P (s.freeReservation b) := by
  unfold State.freeReservation
  split
  · exact h
  · next r _ =>
    have freed : P { s with reservation := none } := C.reservation _ _ h
    have told : P (match b with
        | none => { s with reservation := none }
        | some b => ({ s with reservation := none } : State).post r.holder b) := by
      split
      · exact freed
      · exact C.books.post freed _ _
    exact C.books.judgeJoins (C.books.post told _ _)

theorem enterEjectPending (c : EjectCause) : P (s.enterEjectPending c) :=
  ite_closed (C.spinRequest (C.updCustody h _)) (C.updCustody h _)

theorem enterUnmounting : P s.enterUnmounting := C.retractRequest (C.updCustody h _)

/-! ### Acceptance -/

theorem takeReservation (q : Port) (m : ReserveMode) (limit : Nat) : P (s.takeReservation q m limit) :=
  ite_closed (C.books.judgeJoins (C.books.post (C.reservation _ _ h) _ _)) (C.reservation _ _ h)

theorem acceptTransfer (op : XferOp) (b : Block) : P (s.acceptTransfer p op b) := by
  unfold State.acceptTransfer
  exact C.updSpindle (C.updStation (C.pool s _ h) _) _

theorem entryReady (q : Port) (tag : Byte) : P (s.entryReady q tag) := C.books.judgeJoin (C.spinRequest h) q tag

theorem answerCancel (tag : Byte) : P (s.answerCancel p tag) := by
  have answered {u : State} (hu : P u) (o : Outcome) : P (u.respond p 0x1C tag o []) := C.respond hu _ _ _ _
  unfold State.answerCancel
  split
  · exact answered h _
  · split
    · exact answered h _
    · exact answered (C.books.removeEntry h p tag) _
    · exact ite_closed (answered h _) (answered (C.books.cancelEntry h p tag) _)
    · exact answered h _
    · exact answered h _

theorem acceptEject (b : Block) : P (s.acceptEject p b) := by
  have unlocked : P (s.updCtx p fun c => { c with lockHeld := false }) := C.updStation h _
  exact ite_closed (C.updCustody h _)
    (ite_closed (C.enterUnmounting (C.updCustody unlocked _)) (C.enterEjectPending unlocked _))

theorem acceptMaint (k : MaintKind) (tag : Byte) (spare : Nat) : P (s.acceptMaint p k tag spare) :=
  C.spinRequest (C.updStation h _)

theorem handOnRecord (q : Port) (r : MediaRecord) : P (s.handOnRecord q r) := C.driveReq _ _ (C.ram s _ h)

theorem acceptMapSpare (b : Block) : P (s.acceptMapSpare p b) := by
  unfold State.acceptMapSpare
  split
  · exact h
  · exact C.handOnRecord (C.acceptMaint h _ _ _) _ _

/-! ### Station commands -/

/-- No station command disturbs `P`. -/
theorem exec_station (c : Instr) (blk : Block) (station : commandBlock c = some (p, blk)) {t : State}
    (done : exec c s = .next t) : P t := by
  cases c <;> cases station
  case status =>
    cases done
    exact C.command h _ _ _ _ fun u hu => C.respondWith (C.pins u _ hu) _ _ _ _
  case fetchNotice =>
    cases done
    exact C.command h _ _ _ _ fun u hu => C.answerNotice hu
  case acknowledgeConditions =>
    cases done
    exact C.command h _ _ _ _ fun u hu => C.respond (C.updStation hu _) _ _ _ _
  case acceptMedium =>
    cases done
    exact C.command h _ _ _ _ fun u hu => C.respond (C.updStation hu _) _ _ _ _
  case reserve =>
    cases done
    exact C.command h _ _ _ _ fun u hu => C.finish (C.respond (C.takeReservation hu _ _ _) _ _ _ _)
  case release =>
    cases done
    exact C.command h _ _ _ _ fun u hu => C.finish (C.respond (C.freeReservation hu _) _ _ _ _)
  case lock =>
    cases done
    exact C.command h _ _ _ _ fun u hu => C.respond (C.updStation hu _) _ _ _ _
  case unlock =>
    cases done
    exact C.command h _ _ _ _ fun u hu => C.respond (C.updStation hu _) _ _ _ _
  case spinUp =>
    cases done
    exact C.command h _ _ _ _ fun u hu => C.finish (C.respond (C.spinRequest (C.updSpindle hu _)) _ _ _ _)
  case spinDown =>
    cases done
    exact C.command h _ _ _ _ fun u hu => C.finish (C.respond (C.updSpindle hu _) _ _ _ _)
  case read =>
    cases done
    exact C.command h _ _ _ _ fun u hu => C.finish (C.respond (C.entryReady (C.acceptTransfer hu _ _) _ _) _ _ _ _)
  case write =>
    cases done
    exact C.command h _ _ _ _ fun u hu => C.finish (C.beginPhase (C.acceptTransfer hu _ _) _ _)
  case verify =>
    cases done
    exact C.command h _ _ _ _ fun u hu => C.finish (C.respond (C.entryReady (C.acceptTransfer hu _ _) _ _) _ _ _ _)
  case fetchData =>
    cases done
    exact C.command h _ _ _ _ fun u hu => C.answerFetchData hu _
  case cancel =>
    cases done
    exact C.command h _ _ _ _ fun u hu => C.finish (C.answerCancel hu _)
  case eject =>
    cases done
    exact C.command h _ _ _ _ fun u hu => C.finish (C.respond (C.acceptEject hu _) _ _ _ _)
  case readMediaRecord =>
    cases done
    exact C.command h _ _ _ _ fun u hu => C.respondWith hu _ _ _ _
  case writeMediaRecord =>
    cases done
    exact C.command h _ _ _ _ fun u hu => C.finish (C.beginPhase (C.acceptMaint hu _ _ _) _ _)
  case mapSpare =>
    cases done
    exact C.command h _ _ _ _ fun u hu => C.finish (C.respond (C.acceptMapSpare hu _) _ _ _ _)
  case formatTrack =>
    cases done
    exact C.command h _ _ _ _ fun u hu => C.finish (C.respond (C.driveReq _ _ (C.acceptMaint hu _ _ _)) _ _ _ _)
  case setParameters =>
    cases done
    exact C.command h _ _ _ _ fun u hu => C.beginPhase hu _ _
  case readParameters =>
    cases done
    exact C.command h _ _ _ _ fun u hu => C.respondWith hu _ _ _ _
  case unknownCommand =>
    obtain rfl := next_of_wf done
    exact C.command h _ _ _ _ fun u hu => hu

end DriveClosed

/-! ### The other port's station -/

/-- What the station of port `q` reads of its own port and sets there. -/
def State.SameStation (s : State) (q : Port) (t : State) : Prop :=
  (t.ctx q).link = (s.ctx q).link ∧ (t.ctx q).linkPresent = (s.ctx q).linkPresent ∧
    (t.ctx q).acknowledged = (s.ctx q).acknowledged ∧ (t.ctx q).lockHeld = (s.ctx q).lockHeld ∧
    (t.ctx q).lastRefusal = (s.ctx q).lastRefusal

theorem sameStation_of_ctx {s t u : State} {q : Port} (same : u.ctx q = t.ctx q) (h : s.SameStation q t) :
    s.SameStation q u := by
  rw [State.SameStation, same]
  exact h

theorem raise_station (c : PortContext) (f : Flag) :
    (c.raise f).link = c.link ∧ (c.raise f).linkPresent = c.linkPresent ∧ (c.raise f).acknowledged = c.acknowledged ∧
      (c.raise f).lockHeld = c.lockHeld ∧ (c.raise f).lastRefusal = c.lastRefusal := by
  unfold PortContext.raise
  split <;> exact ⟨rfl, rfl, rfl, rfl, rfl⟩

theorem ctx_of_ports {s t : State} (a : t.portA = s.portA) (b : t.portB = s.portB) (q : Port) : t.ctx q = s.ctx q := by
  cases q
  · exact a
  · exact b

theorem recordFormatted_ctx (s : State) (q : Port) : s.recordFormatted.ctx q = s.ctx q := by
  unfold State.recordFormatted
  split
  · split <;> cases q <;> rfl
  · rfl

theorem dropGate_ctx (s : State) (q : Port) : s.dropGate.ctx q = s.ctx q := by
  rw [dropGate_frame]
  cases q <;> rfl

theorem driveClosed_sameStation (s : State) (p : Port) : DriveClosed p (s.SameStation p.other) where
  pins t _ := sameStation_of_ctx (ctx_of_ports (s := t) rfl rfl _)
  params t _ := sameStation_of_ctx (ctx_of_ports (s := t) rfl rfl _)
  supply t _ := sameStation_of_ctx (ctx_of_ports (s := t) rfl rfl _)
  spindle t _ := sameStation_of_ctx (ctx_of_ports (s := t) rfl rfl _)
  heads t _ _ := sameStation_of_ctx (ctx_of_ports (s := t) rfl rfl _)
  current t _ := sameStation_of_ctx (ctx_of_ports (s := t) rfl rfl _)
  work t _ _ := sameStation_of_ctx (ctx_of_ports (s := t) rfl rfl _)
  gateOff t := sameStation_of_ctx (ctx_of_ports (s := t) rfl rfl _)
  gate t := sameStation_of_ctx (dropGate_ctx t _)
  formatted t := sameStation_of_ctx (recordFormatted_ctx t _)
  free t := sameStation_of_ctx (ctx_of_ports (s := t) rfl rfl _)
  session t _ := sameStation_of_ctx (ctx_of_ports (s := t) rfl rfl _)
  slots t _ := sameStation_of_ctx (ctx_of_ports (s := t) rfl rfl _)
  turn t _ := sameStation_of_ctx (ctx_of_ports (s := t) rfl rfl _)
  driveReq t _ := sameStation_of_ctx (ctx_of_ports (s := t) rfl rfl _)
  ram t _ := sameStation_of_ctx (ctx_of_ports (s := t) rfl rfl _)
  pool t _ := sameStation_of_ctx (ctx_of_ports (s := t) rfl rfl _)
  custody t _ := sameStation_of_ctx (ctx_of_ports (s := t) rfl rfl _)
  copy t _ := sameStation_of_ctx (ctx_of_ports (s := t) rfl rfl _)
  reservation t _ := sameStation_of_ctx (ctx_of_ports (s := t) rfl rfl _)
  outstanding t _ _ := sameStation_of_ctx (ctx_of_ports (s := t) rfl rfl _)
  station t c := sameStation_of_ctx (t.setCtx_ctx_other p c)
  flags t f h := by
    obtain ⟨link, present, acknowledged, lock, refusal⟩ := raise_station (t.ctx p.other) f
    obtain ⟨link', present', acknowledged', lock', refusal'⟩ := h
    rw [State.SameStation, State.raiseFlag_ctx]
    exact ⟨link.trans link', present.trans present', acknowledged.trans acknowledged', lock.trans lock',
      refusal.trans refusal'⟩
  context t q c aside h := by
    obtain ⟨link', present', acknowledged', lock', refusal'⟩ := h
    by_cases own : q = p.other
    · subst own
      obtain ⟨present, acknowledged, lock, -, refusal, link⟩ := aside.fields
      rw [State.SameStation, State.setCtx_ctx]
      exact ⟨link.trans link', present.trans present', acknowledged.trans acknowledged', lock.trans lock',
        refusal.trans refusal'⟩
    · have : q.other = p.other := by cases q <;> cases p <;> simp_all [Port.other]
      refine sameStation_of_ctx ?_ ⟨link', present', acknowledged', lock', refusal'⟩
      rw [← this]
      exact t.setCtx_ctx_other q c

/-- Settles O10: what a station command can write of the other port is its queue, notices and flags alone. -/
theorem commandLeavesTheOtherStation : Obligations.CommandLeavesTheOtherStation :=
  fun c s _ p blk station done =>
    (driveClosed_sameStation s p).exec_station (s := s) ⟨rfl, rfl, rfl, rfl, rfl⟩ c blk station done

end Sys2Proof.Machine
end


section
/-! SUPPORT. A gate that is off: no operation but the two that turn it on writes the medium, so a cartridge that the
gate law does not let be written is not written. -/

namespace Sys2Proof.Machine

/-! ### A predicate closed at both ports -/

/-- `P` is not disturbed by anything but a gate that goes on, and the cartridge's coming and going. -/
def DryClosed (P : State → Prop) : Prop := ∀ p, DriveClosed p P

namespace DryClosed

variable {P : State → Prop} (D : DryClosed P) {s : State} (h : P s)

include D in
theorem drive : DriveClosed .a P := D .a

include D in
theorem fails : FailClosed P where
  toRejectClosed := (D .a).rejects fun s h =>
    (D .b).station _ { s.portB with lockHeld := false } ((D .a).station s { s.portA with lockHeld := false } h)
  driveReq := (D .a).driveReq
  copy := (D .a).copy
  gate := (D .a).gate
  work := (D .a).work

include D h

theorem updCtx (p : Port) (f : PortContext → PortContext) : P (s.updCtx p f) := (D p).station s _ h

theorem updBoth (f : PortContext → PortContext) : P (s.updBoth f) := D.updCtx (D.updCtx h .a f) .b f

theorem updCustody (f : Custody → Custody) : P (s.updCustody f) := D.drive.custody s _ h

theorem updPos (f : Positioner → Positioner) : P (s.updPos f) := D.drive.heads s _ _ h

theorem clearLocks : P s.clearLocks := D.updBoth h _

/-! ### Custody -/

theorem enterSpinning : P s.enterSpinning := D.drive.spinRequest (D.updCustody h _)

theorem askPort (p : Port) : P (s.askPort p) := by
  unfold State.askPort
  split
  · exact h
  · exact D.fails.post h p _

theorem refusePress : P s.refusePress := D.askPort (D.askPort (D.updCustody h _) .a) .b

theorem shortPress : P s.shortPress := by
  have pressed : P (if s.pressRefused then s.refusePress else s.enterEjectPending .panel) :=
    ite_closed (D.refusePress h) (D.drive.enterEjectPending h _)
  unfold State.shortPress
  refine ite_closed h ?_
  split
  · exact pressed
  · exact pressed
  · exact ite_closed (D.refusePress h) (D.updCustody h _)
  · exact D.updCustody h _
  · exact h

theorem forcedEject : P s.forcedEject :=
  D.drive.enterEjectPending (D.fails.cancelAll (D.drive.freeReservation (D.clearLocks h) _) _) _

theorem forcedMountRejection : P s.forcedMountRejection := by
  have broken : P s.clearLocks.breakReservation := D.drive.freeReservation (D.clearLocks h) _
  unfold State.forcedMountRejection
  dsimp only
  split
  · exact D.updCustody broken _
  · exact D.fails.rejectMount broken _
  · exact D.fails.rejectMount broken _
  · exact D.fails.rejectMount broken _
  · exact D.updCustody broken _
  · exact broken

theorem longPress : P s.longPress := by
  unfold State.longPress
  refine ite_closed h ?_
  split
  · exact D.forcedEject h
  · exact D.forcedEject h
  · exact D.forcedEject h
  · exact D.forcedMountRejection h
  · exact D.updCustody h _
  · exact h

theorem mountComplete (record : Option MediaRecord) : P (s.mountComplete record) := by
  have mounted (f g k : Custody → Custody) (b : NoticeBody) :
      P ((((({ s.updCustody f with copy := record } : State).updCustody g).clearLocks).postBoth b).updCustody k) :=
    D.updCustody (D.fails.postBoth (D.clearLocks (D.updCustody (D.fails.copy _ _ (D.updCustody h f)) g)) b) k
  exact ite_closed (D.shortPress (D.updCustody (mounted _ _ _ _) _)) (mounted _ _ _ _)

theorem recordReadJudgement (o : DriveOutcome) : P (s.recordReadJudgement o) := by
  unfold State.recordReadJudgement
  refine ite_closed ?_ h
  split
  · exact D.fails.rejectMount h _
  · split
    · exact D.mountComplete h _
    · exact D.fails.rejectMount h _
    · exact ite_closed (D.fails.rejectMount h _) (D.mountComplete h _)
    · exact h
    · exact D.mountComplete h _

theorem custodyRecalFailed : P s.custodyRecalFailed :=
  ite_closed (D.enterSpinning h) (ite_closed (D.fails.rejectMount h _) h)

theorem custodyRecalDone : P s.custodyRecalDone := ite_closed (D.drive.driveReq _ _ (D.updCustody h _)) h

theorem custodyRecalSeen : P s.custodyRecalSeen := ite_closed (D.updCustody h _) h

theorem recalibrateRequest : P s.recalibrateRequest := by
  unfold State.recalibrateRequest
  dsimp only
  split
  · exact D.custodyRecalSeen (D.drive.beginRecalibration (D.updPos h _))
  · exact ite_closed (D.updPos (D.updPos h _) _) (D.custodyRecalFailed h)
  · exact h

theorem custodySpindleFault : P s.custodySpindleFault := ite_closed (D.fails.rejectMount h _) h

theorem custodySupplyEdge : P s.custodySupplyEdge := by
  unfold State.custodySupplyEdge
  split
  · exact h
  · split
    · exact D.fails.rejectMount h _
    · exact D.updCustody h _
  · exact D.updCustody h _
  · exact h

theorem custodyRecovery : P s.custodyRecovery :=
  ite_closed (D.drive.spinRequest (D.updCustody h _)) (ite_closed (D.updCustody h _) h)

theorem stopRequest : P s.stopRequest := by
  have cleared : P (s.updSpindle fun x => { x with restartFlag := false }) := D.drive.updSpindle h _
  unfold State.stopRequest
  dsimp only
  split
  · exact D.drive.enterBraking cleared
  · exact D.drive.enterBraking cleared
  · exact D.drive.enterBraking cleared
  · exact cleared

theorem enterJammed : P s.enterJammed := by
  unfold State.enterJammed State.raiseFlag
  exact D.updBoth (D.updCustody h _) _

theorem latchConfirmed (w : Bool) : P (s.latchConfirmed w) := by
  unfold State.latchConfirmed
  dsimp only
  split
  · exact D.fails.rejectMount (D.updCustody h _) _
  · exact D.enterSpinning (D.updCustody h _)

/-! ### Operations and sessions that end -/

theorem reportDrive (o : DriveOutcome) : P (s.reportDrive o) :=
  D.fails.reportDrive h fun _ hu => D.recordReadJudgement hu o

theorem failSession (cause activeCause : Cause) : P (s.failSession cause activeCause) :=
  D.fails.failSession h (fun _ hu => D.recordReadJudgement hu _) (fun _ hu => D.recordReadJudgement hu _)

theorem mismatchAct : P s.mismatchAct := by
  unfold State.mismatchAct
  split
  · exact D.drive.setUncertain h
  · exact ite_closed (D.drive.seekRequest (D.drive.setUncertain (D.fails.updSession h _)) _)
      (D.failSession (D.drive.setUncertain h) _ _)

theorem mismatchRearm (k : Nat) : P (s.mismatchRearm k) := by
  unfold State.mismatchRearm
  split
  · exact h
  · exact ite_closed (D.fails.setSlot h _ _) h

theorem endDriveOp (k : Nat) (r : OpResult) : P (s.endDriveOp k r) := by
  cases r with
  | done => exact D.fails.closeJudgement (D.reportDrive h _)
  | mismatch => exact D.mismatchAct (D.mismatchRearm h k)
  | failed c =>
    exact ite_closed (D.fails.closeJudgement (D.reportDrive (D.fails.setSlot h _ _) _)) (D.fails.setSlot h _ _)

theorem endCancelledOp (p : Port) (tag : Byte) (k : Nat) (r : OpResult) : P (s.endCancelledOp p tag k r) := by
  have completed (x : Slot) (n : Nat) : P (((s.setSlot k x).emptySlots p tag).completeEntry p tag (.cancelled n)) :=
    D.fails.completeEntry (D.fails.emptySlots (D.fails.setSlot h k x) p tag) p tag _
  cases r with
  | done => exact D.fails.closeJudgement (completed _ _)
  | mismatch => exact D.fails.closeJudgement (D.mismatchAct (completed _ _))
  | failed c => exact D.fails.closeJudgement (completed _ _)

theorem endDiscardedOp (k : Nat) (r : OpResult) : P (s.endDiscardedOp k r) := by
  cases r with
  | done => exact D.fails.setSlot h _ _
  | mismatch => exact D.mismatchAct (D.fails.setSlot h _ _)
  | failed c => exact D.fails.setSlot h _ _

theorem endServedOp (p : Port) (tag : Byte) (k : Nat) (r : OpResult) : P (s.endServedOp p tag k r) := by
  cases r with
  | done => exact D.fails.judgeCompletion (D.fails.setSlot h _ _) p tag
  | mismatch => exact D.mismatchAct (D.mismatchRearm h k)
  | failed c => exact D.fails.judgeCompletion (D.fails.setSlot h _ _) p tag

theorem endOperation (r : OpResult) : P (s.endOperation r) := by
  unfold State.endOperation
  split
  · exact h
  · extract_lets t _ u
    have ended : P u := D.fails.work t none t.seq.pass (D.drive.gate s h)
    clear_value u
    split
    · split
      · exact D.fails.setSlot ended _ _
      · exact ite_closed (D.endDiscardedOp ended _ r)
          (ite_closed (D.endCancelledOp ended _ _ _ r) (D.endServedOp ended _ _ _ r))
    · exact D.endDriveOp ended _ r
    · exact ended

theorem failPass (c : Cause) : P (s.failPass c) :=
  D.fails.closeJudgement (D.reportDrive (D.fails.work s.dropGate s.dropGate.seq.op none (D.drive.gate s h)) _)

theorem endPass : P s.endPass :=
  D.fails.closeJudgement (D.reportDrive (D.drive.gateOff _ (D.fails.work s s.seq.op none h)) _)

theorem windowEnd : P s.windowEnd := by
  unfold State.windowEnd
  split
  · exact D.endOperation h _
  · exact ite_closed (D.failPass h _) (D.drive.formatted s h)
  · exact h

theorem passAtIndex : P s.passAtIndex :=
  ite_closed h (ite_closed (D.endPass h) (D.failPass (D.drive.gateOff s h) _))

theorem sectorStart (k : Nat) : P (s.sectorStart k) := by
  unfold State.sectorStart
  extract_lets _ t
  have current : P t := D.drive.current _ (some k) (D.fails.work s s.seq.op (s.seq.pass.map fun _ => ⟨s.time⟩) h)
  clear_value t
  split
  · exact current
  · refine ite_closed current ?_
    split
    · exact D.fails.setSlot current _ _
    · exact ite_closed (D.fails.setSlot (D.fails.work t _ t.seq.pass current) _ _) current
    · exact current

/-! ### The spindle's reports -/

theorem sessionSpeedLoss : P s.sessionSpeedLoss := by
  have suspended : P (s.updSession fun x => { x with speedSuspended := true, passDue := false }) :=
    D.fails.updSession h _
  exact ite_closed (D.failPass suspended _) (ite_closed (D.endOperation suspended _) suspended)

theorem loadSpeedLoss : P s.loadSpeedLoss := by
  have abandoned : P s.abandonLoad := D.updPos h _
  exact ite_closed h (ite_closed (D.custodyRecalFailed (D.updPos abandoned _)) abandoned)

theorem speedReport : P s.speedReport := by
  have loss : P s.speedLoss := D.fails.postBoth (D.updBoth (D.loadSpeedLoss
    (D.sessionSpeedLoss (D.drive.updSpindle h _))) _) _
  have reached : P s.enterAtSpeed := D.drive.outstanding _ false _ (D.drive.updSpindle h _)
  exact ite_closed reached (ite_closed loss h)

theorem indexConsequences (order : IndexOrder) : P (s.indexConsequences order) := by
  cases order with
  | reportFirst =>
    exact D.sectorStart (D.passAtIndex (D.windowEnd (D.fails.resumeSession (D.speedReport h)))) 0
  | windowFirst =>
    exact D.sectorStart (D.fails.resumeSession (D.speedReport (D.passAtIndex (D.windowEnd h)))) 0
  | startFirst => exact D.speedReport (D.sectorStart (D.passAtIndex (D.windowEnd h)) 0)

theorem indexRegulated (order : IndexOrder) : P (s.indexRegulated order) := by
  have counted : P s.regulate.sessionIndex := D.fails.updSession (D.drive.updSpindle h _) _
  exact ite_closed (D.fails.updSession counted _) (D.indexConsequences (D.drive.updSpindle counted _) order)

theorem indexStarting : P s.indexStarting := by
  have taken : P (s.updSpindle fun x => { x.takeIndex s.time with firstIndexTimer := s.startTimer 2000000 }) :=
    D.drive.updSpindle h _
  unfold State.indexStarting
  dsimp only
  split
  · exact taken
  · exact ite_closed (D.sectorStart (D.drive.updSpindle taken _) 0) taken

theorem posSpindleFault : P s.posSpindleFault := by
  have moved (f : Positioner → Positioner) := D.updPos h f
  unfold State.posSpindleFault
  split
  · exact D.fails.discardWaiting h
  · dsimp only
    split
    · exact D.custodyRecalFailed (D.updPos (moved _) _)
    · exact D.fails.sessionSeekAbandoned (D.updPos (moved _) _)
    · exact D.updPos (moved _) _
  · exact moved _
  · exact moved _
  · exact moved _
  · exact D.drive.beginRetract h
  · exact h
  · exact h

theorem spindleFault (c : SpindleCause) : P (s.spindleFault c) := by
  unfold State.spindleFault
  extract_lets _ t1 t2 t3 _ _ t4
  have h1 : P t1 := D.drive.outstanding _ true _ (D.drive.updSpindle h _)
  have h3 : P t3 := D.reportDrive (D.failSession (D.fails.postBoth (D.updBoth h1 _) _) _ _) _
  have h4 : P t4 := ite_closed (D.drive.enterBraking h3) (D.drive.current _ none (D.drive.updSpindle h3 _))
  exact D.posSpindleFault (D.custodySpindleFault h4)

/-! ### The positioner's steps -/

theorem answerRecalFailed (r : Option PosRequest) : P (s.answerRecalFailed r) := by
  unfold State.answerRecalFailed
  split
  · exact D.failSession (D.fails.updSession h _) _ _
  · exact D.custodyRecalFailed h
  · exact h

theorem recalFailure : P s.recalFailure :=
  D.answerRecalFailed (D.drive.beginRetract (D.updPos (D.fails.postBoth
    (D.updBoth (D.drive.outstanding s _ true h) _) _) _)) _

theorem answerAbandoned (r : Option PosRequest) : P (s.answerAbandoned r) := by
  unfold State.answerAbandoned
  split
  · exact D.fails.sessionSeekAbandoned h
  · exact D.custodyRecalFailed h
  · exact h

theorem motionEnd (f : Profile) (sensor : TrackZeroReading) : P (s.motionEnd f sensor) := by
  unfold State.motionEnd
  split
  · exact D.updPos h _
  · exact ite_closed (D.drive.sensorFound h) (D.drive.beginCreep (D.drive.setUncertain h))
  · exact D.updPos h _
  · exact D.updPos h _
  · exact h

theorem stepOn (f : Profile) (sensor : TrackZeroReading) : P (s.stepOn f sensor) :=
  ite_closed (D.drive.pulse h _ _) (D.motionEnd h f sensor)

theorem creepOn (f : Profile) (sensor : TrackZeroReading) : P (s.creepOn f sensor) :=
  ite_closed (D.drive.sensorFound h) (ite_closed (D.drive.pulse h _ _) (D.recalFailure h))

theorem enterOnTrack : P s.enterOnTrack := by
  unfold State.enterOnTrack
  dsimp only
  split
  · exact D.fails.sessionSeekDone (D.updPos h _)
  · exact D.custodyRecalDone (D.updPos h _)
  · exact D.updPos h _

theorem settleEnd : P s.settleEnd := by
  unfold State.settleEnd
  split
  · exact ite_closed (D.updPos h _) (D.enterOnTrack h)
  · exact D.updPos h _
  · exact h

/-! ### The supply -/

theorem beginEmergency (n : Nat) : P (s.beginEmergency n) :=
  ite_closed (D.updPos (D.updPos h _) _) (D.drive.startMove (D.updPos h _) _)

theorem posSupplyEdge : P s.posSupplyEdge := by
  have cleared : P ((s.updPos Positioner.clearWork).updSession fun x => { x with seekOutstanding := false }) :=
    D.fails.updSession (D.updPos h _) _
  unfold State.posSupplyEdge
  dsimp only
  split
  · exact cleared
  · exact D.updPos cleared _
  · exact D.beginEmergency cleared _
  · exact D.beginEmergency (D.drive.setUncertain cleared) _
  · exact D.beginEmergency (D.drive.setUncertain cleared) _
  · exact D.beginEmergency (D.drive.setUncertain cleared) _
  · exact D.beginEmergency cleared _
  · exact h

theorem spindleSupplyEdge (parked : Bool) : P (s.spindleSupplyEdge parked) := by
  unfold State.spindleSupplyEdge
  extract_lets _ _ t
  have cleared : P t := D.drive.spindle _ _ (D.drive.current s none h)
  clear_value t
  exact ite_closed (ite_closed (D.drive.enterBraking cleared) (D.drive.updSpindle cleared _)) cleared

theorem undoPhase (p : Port) : P (s.undoPhase p) := by
  unfold State.undoPhase
  split
  · exact D.fails.removeEntry h p _
  · exact D.updCtx h p _
  · exact h

theorem timeOutPhase (p : Port) : P (s.timeOutPhase p) := (D p).respond (D.undoPhase h p) _ _ _ _

theorem failReady (p : Port) : P (s.failReady p) := by
  unfold State.failReady
  exact foldl_closed (P := P) _ (fun _ e hu => D.fails.completeEntry hu p e.tag _) h

theorem cascade : P s.cascade := by
  unfold State.cascade
  extract_lets _ _ t1 t2 t3 t4 t5 t6 t7 t8 t9
  have h2 : P t2 := D.fails.postBoth (D.updBoth (D.drive.supply s _ h) _) _
  have h5 : P t5 := D.spindleSupplyEdge (D.posSupplyEdge (D.drive.gate _ h2)) _
  have h8 : P t8 := D.reportDrive (D.failSession (D.custodySupplyEdge h5) _ _) _
  have h9 : P t9 := D.failReady (D.failReady h8 _) _
  have ends {u : State} (hu : P u) (p : Port) : P (u.edgeEndsPhase p) := ite_closed (D.timeOutPhase hu p) hu
  exact ends (ends h9 _) _

/-! ### The ends of phases -/

theorem endWritePhase (p : Port) (tag : Byte) (bytes : List Byte) : P (s.endWritePhase p tag bytes) := by
  unfold State.endWritePhase
  split
  · exact (D p).respond h _ _ _ _
  · have stored := D.drive.storePhase h
    exact (D p).respond (ite_closed (D.drive.entryReady (D.fails.updEntry (stored _ _ _) p tag _) p tag)
      (D.fails.completeEntry (stored _ _ _) p tag _)) _ _ _ _

theorem endRecordPhase (p : Port) (tag : Byte) (all : List Byte) : P (s.endRecordPhase p tag all) := by
  unfold State.endRecordPhase
  split
  · exact (D p).respond h _ _ _ _
  · exact (D p).respond (D.drive.handOnRecord h p _) _ _ _ _

/-! ### The end point, the arbiter, the port reset -/

theorem endByResult (o : Operation) (header : HeaderReading) (data : DataReading) :
    P (s.endByResult o header data) := by
  have writing : P (s.endWriting o) := ite_closed (D.endOperation h _) (D.endOperation (D.drive.free s h) _)
  have reading : P (s.endReading o data) :=
    D.endOperation (D.drive.free _ (ite_closed h (D.drive.ram s _ h))) _
  unfold State.endByResult
  split
  · exact D.endOperation h _
  · exact D.endOperation h _
  · exact ite_closed writing reading

theorem positionSession (track : Nat) : P (s.positionSession track) :=
  ite_closed (D.fails.armingPass h) (D.drive.seekRequest (D.fails.updSession h _) track)

theorem choose : P s.choose := by
  unfold State.choose
  split
  · exact D.positionSession (D.fails.session s _ h) _
  · split
    · exact h
    · split
      · exact h
      · next p _ _ e _ =>
        exact D.positionSession (D.fails.updEntry (D.drive.turn _ p (D.fails.session s _ h)) p e.tag _) _

theorem resetEntry (p : Port) (e : Entry) : P (s.resetEntry p e) :=
  ite_closed (D.fails.updEntry (D.fails.mapSlots h _) p _ _) (D.fails.removeEntry (D.fails.emptySlots h p _) p _)

theorem portReset (p : Port) : P (s.portReset p) := by
  unfold State.portReset State.resetQueue
  extract_lets t1 t2 t3
  have h1 : P t1 := foldl_closed (P := P) _ (fun _ e hu => D.resetEntry hu p e) h
  have h3 : P t3 := ite_closed (D.drive.freeReservation (D.updCtx h1 p _) _) (D.updCtx h1 p _)
  exact ite_closed (D.fails.closeJudgement h3) h3

/-! ### Commands -/

variable {t : State}

theorem execPortReset (p : Port) (done : Machine.execPortReset p s = .next t) : P t := by
  cases done
  exact D.drive.finish (D.portReset h p)

theorem execPresenceLineLow (p : Port) (done : Machine.execPresenceLineLow p s = .next t) : P t := by
  cases done
  exact ite_closed (D.drive.finish (D.portReset (D.updCtx h p _) p)) h

theorem execPresenceLineHigh (p : Port) (done : Machine.execPresenceLineHigh p s = .next t) : P t := by
  cases done
  exact ite_closed h (D.updCtx h p _)

theorem execBlockTimerExpiry (p : Port) (done : Machine.execBlockTimerExpiry p s = .next t) : P t := by
  cases done
  exact ite_closed ((D p).linkToIdle h) h

theorem execDataPhaseGapTimeout (p : Port) (done : Machine.execDataPhaseGapTimeout p s = .next t) : P t := by
  cases done
  exact ite_closed (D.drive.finish (D.timeOutPhase h p)) h

theorem execStallTimerExpiry (p : Port) (done : Machine.execStallTimerExpiry p s = .next t) : P t := by
  cases done
  exact ite_closed ((D p).linkToIdle h) h

theorem execResponseComplete (p : Port) (done : Machine.execResponseComplete p s = .next t) : P t := by
  cases done
  exact ite_closed ((D p).endOutbound h) h

theorem execNoticeRecordTaken (p : Port) (done : Machine.execNoticeRecordTaken p s = .next t) : P t := by
  cases done
  exact ite_closed ((D p).endOutbound h) h

theorem execNoticeRefill (p : Port) (done : Machine.execNoticeRefill p s = .next t) : P t := by
  cases done
  exact D.updCtx h p _

theorem execFetchDataComplete (p : Port) (done : Machine.execFetchDataComplete p s = .next t) : P t := by
  cases done
  exact ite_closed ((D p).endOutbound h) h

theorem execWriteDataPhaseComplete (p : Port) (bytes : List Byte)
    (done : Machine.execWriteDataPhaseComplete p bytes s = .next t) : P t := by
  obtain rfl := next_of_wf done
  split
  · exact ite_closed (D.drive.finish (D.endWritePhase h p _ _)) h
  · exact h

theorem execMediaRecordPhaseComplete (p : Port) (bytes : List Byte)
    (done : Machine.execMediaRecordPhaseComplete p bytes s = .next t) : P t := by
  obtain rfl := next_of_wf done
  split
  · exact ite_closed (D.drive.finish (D.endRecordPhase h p _ _)) h
  · exact h

theorem execParameterPhaseComplete (p : Port) (bytes : List Byte)
    (done : Machine.execParameterPhaseComplete p bytes s = .next t) : P t := by
  obtain rfl := next_of_wf done
  exact ite_closed (D.drive.finish ((D p).respond (D.drive.params s _ h) _ _ _ _)) h

theorem execIndexEvent (order : IndexOrder) (done : Machine.execIndexEvent order s = .next t) : P t := by
  cases done
  split
  · exact h
  · exact D.drive.finish (D.indexStarting h)
  · exact D.drive.finish (D.indexRegulated h order)
  · exact D.drive.finish (D.indexRegulated h order)
  · exact D.drive.updSpindle h _
  · exact h

theorem execSectorStartEvent (k : Nat) (done : Machine.execSectorStartEvent k s = .next t) : P t := by
  obtain rfl := next_of_wf done
  exact ite_closed (D.drive.finish (D.sectorStart (D.windowEnd h) k)) h

theorem execOperationEndPoint (header : HeaderReading) (data : DataReading)
    (done : Machine.execOperationEndPoint header data s = .next t) : P t := by
  obtain rfl := next_of_wf done
  split
  · exact h
  · exact ite_closed (D.drive.finish (D.endByResult h _ header data)) h

theorem execDiscardedEntryRemoval (p : Port) (done : Machine.execDiscardedEntryRemoval p s = .next t) : P t := by
  cases done
  split
  · exact h
  · exact D.drive.finish (D.fails.closeJudgement (D.fails.removeEntry (D.fails.emptySlots h p _) p _))

theorem execFirstIndexTimerExpiry (done : Machine.execFirstIndexTimerExpiry s = .next t) : P t := by
  cases done
  exact ite_closed (D.drive.finish (D.spindleFault h _)) h

theorem execLockTimerExpiry (done : Machine.execLockTimerExpiry s = .next t) : P t := by
  cases done
  exact ite_closed (D.drive.finish (D.spindleFault h _)) h

theorem execIndexAbsenceTimerExpiry (done : Machine.execIndexAbsenceTimerExpiry s = .next t) : P t := by
  cases done
  exact ite_closed (D.drive.finish (D.spindleFault h _)) h

theorem execRegainTimerExpiry (done : Machine.execRegainTimerExpiry s = .next t) : P t := by
  cases done
  exact ite_closed (D.drive.finish (D.spindleFault h _)) h

theorem execPendingFaultBrake (done : Machine.execPendingFaultBrake s = .next t) : P t := by
  cases done
  exact ite_closed (D.drive.finish (D.drive.enterBraking h)) h

theorem execQuietTimerExpiry (done : Machine.execQuietTimerExpiry s = .next t) : P t := by
  cases done
  exact ite_closed (D.drive.finish (D.drive.enterStopped h)) h

theorem execRestartOnStopped (done : Machine.execRestartOnStopped s = .next t) : P t := by
  cases done
  exact ite_closed (D.drive.finish (D.drive.spinRequest (D.drive.updSpindle h _))) h

theorem execIdleSecondElapsed (done : Machine.execIdleSecondElapsed s = .next t) : P t := by
  cases done
  exact ite_closed (D.drive.finish (D.drive.updSpindle h _)) h

theorem execStandbyBrake (done : Machine.execStandbyBrake s = .next t) : P t := by
  cases done
  exact ite_closed (D.drive.finish (D.drive.enterBraking h)) h

theorem execCoastingEnd (done : Machine.execCoastingEnd s = .next t) : P t := by
  cases done
  exact ite_closed (D.drive.finish (D.drive.enterBraking h)) h

theorem execLoadTimerExpiry (done : Machine.execLoadTimerExpiry s = .next t) : P t := by
  cases done
  exact ite_closed (D.drive.finish (D.custodyRecalSeen (D.drive.beginRecalibration (D.updPos h _)))) h

theorem execWaitingTargetStart (done : Machine.execWaitingTargetStart s = .next t) : P t := by
  cases done
  split
  · exact ite_closed (D.drive.finish (D.updPos (D.updPos h _) _)) h
  · exact h

theorem execStepIntervalExpiry (sensor : TrackZeroReading)
    (done : Machine.execStepIntervalExpiry sensor s = .next t) : P t := by
  cases done
  split
  · exact ite_closed (D.drive.finish (D.stepOn h _ sensor)) h
  · exact h

theorem execCreepIntervalExpiry (sensor : TrackZeroReading)
    (done : Machine.execCreepIntervalExpiry sensor s = .next t) : P t := by
  cases done
  split
  · exact ite_closed (D.drive.finish (D.creepOn h _ sensor)) h
  · exact h

theorem execSettleTimerExpiry (done : Machine.execSettleTimerExpiry s = .next t) : P t := by
  cases done
  exact ite_closed (D.drive.finish (D.settleEnd h)) h

theorem execHeldRetractStart (done : Machine.execHeldRetractStart s = .next t) : P t := by
  cases done
  exact ite_closed (D.drive.finish (D.answerAbandoned (D.drive.beginRetract (D.updPos h _)) _)) h

theorem execSessionResume (done : Machine.execSessionResume s = .next t) : P t := by
  cases done
  exact ite_closed (D.drive.finish (D.fails.resumeSession h)) h

theorem execArbiterChoice (done : Machine.execArbiterChoice s = .next t) : P t := by
  cases done
  exact ite_closed (D.drive.finish (D.choose h)) h

theorem execDebounceTimerExpiry (done : Machine.execDebounceTimerExpiry s = .next t) : P t := by
  cases done
  exact ite_closed (D.drive.finish (D.updCustody h _)) h

theorem execLatchSensorLatched (writeProtect : Bool)
    (done : Machine.execLatchSensorLatched writeProtect s = .next t) : P t := by
  cases done
  exact ite_closed (D.drive.finish (D.latchConfirmed (D.drive.pins s _ h) writeProtect)) (D.drive.pins s _ h)

theorem execLatchTimerExpiry (done : Machine.execLatchTimerExpiry s = .next t) : P t := by
  cases done
  exact ite_closed (D.drive.finish (D.fails.rejectMount h _)) h

theorem execLatchPulseEnd (done : Machine.execLatchPulseEnd s = .next t) : P t := by
  cases done
  exact ite_closed (D.updCustody h _) h

theorem execMountStepLoading (done : Machine.execMountStepLoading s = .next t) : P t := by
  cases done
  exact ite_closed (D.drive.finish (D.recalibrateRequest (D.updCustody h _))) h

theorem execDrainComplete (done : Machine.execDrainComplete s = .next t) : P t := by
  cases done
  exact ite_closed (D.drive.finish (D.drive.enterUnmounting h)) h

theorem execUnmountStopRequest (done : Machine.execUnmountStopRequest s = .next t) : P t := by
  cases done
  exact ite_closed (D.drive.finish (D.stopRequest (D.updCustody h _))) h

theorem execReleaseAttemptStart (done : Machine.execReleaseAttemptStart s = .next t) : P t := by
  cases done
  have attempt : P (if s.releasingDue then s.newAttempt else s) := ite_closed (D.updCustody h _) h
  exact ite_closed (D.updCustody attempt _) attempt

theorem execEjectPulseEnd (done : Machine.execEjectPulseEnd s = .next t) : P t := by
  cases done
  exact ite_closed (D.updCustody h _) h

theorem execReleaseTimerExpiry (done : Machine.execReleaseTimerExpiry s = .next t) : P t := by
  cases done
  exact ite_closed (ite_closed (D.enterJammed h)
    (ite_closed (D.updCustody (D.updCustody h _) _) (D.updCustody h _))) h

theorem execButtonDown (done : Machine.execButtonDown s = .next t) : P t := by
  cases done
  exact ite_closed h (D.updCustody (D.drive.pins s _ h) _)

theorem execButtonUp (done : Machine.execButtonUp s = .next t) : P t := by
  cases done
  exact ite_closed (D.drive.finish (D.shortPress (D.updCustody (D.drive.pins s _ h) _))) (D.drive.pins s _ h)

theorem execHoldTimerExpiry (done : Machine.execHoldTimerExpiry s = .next t) : P t := by
  cases done
  exact ite_closed (D.drive.finish (D.longPress (D.updCustody h _))) h

theorem execAttentionTimerExpiry (done : Machine.execAttentionTimerExpiry s = .next t) : P t := by
  cases done
  exact ite_closed (D.updCustody h _) h

theorem execReservationIdleTimerExpiry (done : Machine.execReservationIdleTimerExpiry s = .next t) : P t := by
  cases done
  exact ite_closed (D.drive.finish (D.drive.freeReservation h _)) h

theorem execSupplyFallingEdge (done : Machine.execSupplyFallingEdge s = .next t) : P t := by
  cases done
  have pins := D.drive.pins s { s.pins with comparatorHigh := false } h
  dsimp only
  split
  · exact D.drive.finish (D.cascade pins)
  · exact pins
  · exact D.drive.supply _ _ pins

theorem execSupplyRisingEdge (done : Machine.execSupplyRisingEdge s = .next t) : P t := by
  cases done
  have pins := D.drive.pins s { s.pins with comparatorHigh := true } h
  dsimp only
  split
  · exact D.drive.supply _ _ pins
  · exact pins
  · exact pins

theorem execRecoveryTimerExpiry (done : Machine.execRecoveryTimerExpiry s = .next t) : P t := by
  cases done
  exact ite_closed (D.drive.finish (D.custodyRecovery (D.fails.postBoth (D.drive.supply s _ h) _))) h

theorem execInboundByteTaken (p : Port) (byte : Byte)
    (done : Machine.execInboundByteTaken p byte s = .next t) : P t := by
  cases done
  exact ite_closed ((D p).takeByte h byte) h

theorem execOutboundByteTaken (p : Port) (done : Machine.execOutboundByteTaken p s = .next t) : P t := by
  cases done
  exact ite_closed (D.updCtx h p _) h

end DryClosed

/-- The gate is off, and `m` is recorded. -/
def State.Dry (m : Medium) (s : State) : Prop := s.seq.gate = false ∧ s.medium = m

theorem dropGate_of_off {s : State} (off : s.seq.gate = false) : s.dropGate = s := by simp [State.dropGate, off]

theorem recordFormatted_of_off {s : State} (off : s.seq.gate = false) : s.recordFormatted = s := by
  unfold State.recordFormatted
  split
  · simp [off]
  · rfl

theorem setCtx_dry {m : Medium} {s : State} (p : Port) (c : PortContext) (h : s.Dry m) : (s.setCtx p c).Dry m := by
  cases p <;> exact h

/-- What is recorded is left alone while the gate is off. -/
theorem dryClosed (m : Medium) : DryClosed (State.Dry m) := fun p =>
  { pins := fun _ _ h => h
    supply := fun _ _ h => h
    params := fun _ _ h => h
    spindle := fun _ _ h => h
    heads := fun _ _ _ h => h
    current := fun _ _ h => h
    work := fun _ _ _ h => h
    gateOff := fun _ h => ⟨rfl, h.2⟩
    gate := fun _ h => by rwa [dropGate_of_off h.1]
    formatted := fun _ h => by rwa [recordFormatted_of_off h.1]
    free := fun _ h => h
    session := fun _ _ h => h
    slots := fun _ _ h => h
    turn := fun _ _ h => h
    driveReq := fun _ _ h => h
    ram := fun _ _ h => h
    pool := fun _ _ h => h
    context := fun _ q c _ h => setCtx_dry q c h
    station := fun _ c h => setCtx_dry p c h
    flags := fun _ _ h => h
    custody := fun _ _ h => h
    copy := fun _ _ h => h
    reservation := fun _ _ h => h
    outstanding := fun _ _ _ h => h }

/-- A gate that goes on has not recorded yet. -/
theorem execDataFieldReached_medium {header : HeaderReading} {s t : State}
    (done : execDataFieldReached header s = .next t) : t.medium = s.medium := by
  obtain rfl := next_of_wf done
  split
  · rfl
  · split <;> rfl

theorem execFormatPassStart_medium {s t : State} (done : execFormatPassStart s = .next t) : t.medium = s.medium := by
  cases done
  split <;> rfl

theorem execCheckBytesRecorded_of_off {s t : State} (off : s.seq.gate = false)
    (done : execCheckBytesRecorded s = .next t) : t = s := by
  cases done
  split
  · rfl
  · simp [off]

theorem exec_of_gate_off {c : Instr} {s t : State} (off : s.seq.gate = false) (done : exec c s = .next t)
    (noCartridge : ∀ m, c ≠ .presentSensorActive m) (noRelease : c ≠ .presentSensorInactive)
    (noReset : ∀ r, c ≠ .powerOnReset r) : t.medium = s.medium := by
  have D := dryClosed s.medium
  have h : s.Dry s.medium := ⟨off, rfl⟩
  by_cases fieldReached : ∃ header, c = .dataFieldReached header
  · obtain ⟨header, rfl⟩ := fieldReached
    exact execDataFieldReached_medium done
  by_cases passStarts : c = .formatPassStart
  · subst passStarts
    exact execFormatPassStart_medium done
  suffices t.Dry s.medium from this.2
  cases c with
  | powerOnReset r => exact absurd rfl (noReset r)
  | presentSensorActive m => exact absurd rfl (noCartridge m)
  | presentSensorInactive => exact absurd rfl noRelease
  | dataFieldReached header => exact absurd ⟨header, rfl⟩ fieldReached
  | formatPassStart => exact absurd rfl passStarts
  | checkBytesRecorded =>
    obtain rfl := execCheckBytesRecorded_of_off off done
    exact h
  | portReset p => exact D.execPortReset h _ done
  | presenceLineLow p => exact D.execPresenceLineLow h _ done
  | presenceLineHigh p => exact D.execPresenceLineHigh h _ done
  | blockTimerExpiry p => exact D.execBlockTimerExpiry h _ done
  | dataPhaseGapTimeout p => exact D.execDataPhaseGapTimeout h _ done
  | stallTimerExpiry p => exact D.execStallTimerExpiry h _ done
  | responseComplete p => exact D.execResponseComplete h _ done
  | noticeRecordTaken p => exact D.execNoticeRecordTaken h _ done
  | noticeRefill p => exact D.execNoticeRefill h _ done
  | fetchDataComplete p => exact D.execFetchDataComplete h _ done
  | writeDataPhaseComplete p bytes => exact D.execWriteDataPhaseComplete h _ _ done
  | mediaRecordPhaseComplete p bytes => exact D.execMediaRecordPhaseComplete h _ _ done
  | parameterPhaseComplete p bytes => exact D.execParameterPhaseComplete h _ _ done
  | indexEvent order => exact D.execIndexEvent h _ done
  | sectorStartEvent k => exact D.execSectorStartEvent h _ done
  | operationEndPoint header data => exact D.execOperationEndPoint h _ _ done
  | discardedEntryRemoval p => exact D.execDiscardedEntryRemoval h _ done
  | firstIndexTimerExpiry => exact D.execFirstIndexTimerExpiry h done
  | lockTimerExpiry => exact D.execLockTimerExpiry h done
  | indexAbsenceTimerExpiry => exact D.execIndexAbsenceTimerExpiry h done
  | regainTimerExpiry => exact D.execRegainTimerExpiry h done
  | pendingFaultBrake => exact D.execPendingFaultBrake h done
  | quietTimerExpiry => exact D.execQuietTimerExpiry h done
  | restartOnStopped => exact D.execRestartOnStopped h done
  | idleSecondElapsed => exact D.execIdleSecondElapsed h done
  | standbyBrake => exact D.execStandbyBrake h done
  | coastingEnd => exact D.execCoastingEnd h done
  | loadTimerExpiry => exact D.execLoadTimerExpiry h done
  | waitingTargetStart => exact D.execWaitingTargetStart h done
  | stepIntervalExpiry sensor => exact D.execStepIntervalExpiry h _ done
  | creepIntervalExpiry sensor => exact D.execCreepIntervalExpiry h _ done
  | settleTimerExpiry => exact D.execSettleTimerExpiry h done
  | heldRetractStart => exact D.execHeldRetractStart h done
  | sessionResume => exact D.execSessionResume h done
  | arbiterChoice => exact D.execArbiterChoice h done
  | debounceTimerExpiry => exact D.execDebounceTimerExpiry h done
  | latchSensorLatched writeProtect => exact D.execLatchSensorLatched h _ done
  | latchTimerExpiry => exact D.execLatchTimerExpiry h done
  | latchPulseEnd => exact D.execLatchPulseEnd h done
  | mountStepLoading => exact D.execMountStepLoading h done
  | drainComplete => exact D.execDrainComplete h done
  | unmountStopRequest => exact D.execUnmountStopRequest h done
  | releaseAttemptStart => exact D.execReleaseAttemptStart h done
  | ejectPulseEnd => exact D.execEjectPulseEnd h done
  | releaseTimerExpiry => exact D.execReleaseTimerExpiry h done
  | buttonDown => exact D.execButtonDown h done
  | buttonUp => exact D.execButtonUp h done
  | holdTimerExpiry => exact D.execHoldTimerExpiry h done
  | attentionTimerExpiry => exact D.execAttentionTimerExpiry h done
  | reservationIdleTimerExpiry => exact D.execReservationIdleTimerExpiry h done
  | supplyFallingEdge => exact D.execSupplyFallingEdge h done
  | supplyRisingEdge => exact D.execSupplyRisingEdge h done
  | recoveryTimerExpiry => exact D.execRecoveryTimerExpiry h done
  | inboundByteTaken p byte => exact D.execInboundByteTaken h _ _ done
  | outboundByteTaken p => exact D.execOutboundByteTaken h _ done
  | unknownCommand p code blk => exact (D p).exec_station h _ blk rfl done
  | status p blk sensors => exact (D p).exec_station h _ blk rfl done
  | fetchNotice p blk => exact (D p).exec_station h _ blk rfl done
  | acknowledgeConditions p blk => exact (D p).exec_station h _ blk rfl done
  | acceptMedium p blk => exact (D p).exec_station h _ blk rfl done
  | reserve p blk => exact (D p).exec_station h _ blk rfl done
  | release p blk => exact (D p).exec_station h _ blk rfl done
  | lock p blk => exact (D p).exec_station h _ blk rfl done
  | unlock p blk => exact (D p).exec_station h _ blk rfl done
  | spinUp p blk => exact (D p).exec_station h _ blk rfl done
  | spinDown p blk => exact (D p).exec_station h _ blk rfl done
  | read p blk => exact (D p).exec_station h _ blk rfl done
  | write p blk => exact (D p).exec_station h _ blk rfl done
  | verify p blk => exact (D p).exec_station h _ blk rfl done
  | fetchData p blk => exact (D p).exec_station h _ blk rfl done
  | cancel p blk => exact (D p).exec_station h _ blk rfl done
  | eject p blk => exact (D p).exec_station h _ blk rfl done
  | readMediaRecord p blk => exact (D p).exec_station h _ blk rfl done
  | writeMediaRecord p blk => exact (D p).exec_station h _ blk rfl done
  | mapSpare p blk => exact (D p).exec_station h _ blk rfl done
  | formatTrack p blk => exact (D p).exec_station h _ blk rfl done
  | setParameters p blk => exact (D p).exec_station h _ blk rfl done
  | readParameters p blk => exact (D p).exec_station h _ blk rfl done

/-- Settles O9: the gate law keeps the gate off, and with the gate off no command records. -/
theorem protectedCartridgeIsNeverWritten : Obligations.ProtectedCartridgeIsNeverWritten := by
  intro c s t lawful notWritable done noCartridge noRelease noReset
  have off : s.seq.gate = false := by
    by_contra on
    obtain ⟨law, -⟩ := lawful (by simpa using on)
    simp [State.gateLaw, notWritable] at law
  exact exec_of_gate_off off done noCartridge noRelease noReset

end Sys2Proof.Machine
end


section
/-! SUPPORT. The write-gate law (R82): what `finish` establishes, what the commands without it leave, and the commands
that turn the gate on. -/

namespace Sys2Proof.Machine

/-! ### Where the law comes from -/

/-- Whatever came before, a gate that is still on after `finish` obeys its law. -/
theorem finish_gateLawful (s : State) : s.finish.GateLawful := by
  unfold State.finish State.dropGateByLaw
  split
  next lawful => exact fun _ => by simpa using lawful
  next =>
    intro on
    rw [dropGate_seq] at on
    cases on

theorem gateLawful_of_off {s : State} (off : s.seq.gate = false) : s.GateLawful := fun on => by
  rw [off] at on
  cases on

/-- `t` has what the law speaks of as `s` has it. -/
def State.SameGate (s t : State) : Prop :=
  t.seq = s.seq ∧ t.spindle.state = s.spindle.state ∧ t.pos = s.pos ∧ t.supply = s.supply ∧
    t.custody.protect = s.custody.protect

theorem State.SameGate.refl (s : State) : s.SameGate s := ⟨rfl, rfl, rfl, rfl, rfl⟩

theorem State.SameGate.lawful {s t : State} (same : s.SameGate t) (h : s.GateLawful) : t.GateLawful := by
  obtain ⟨seq, spindle, pos, supply, protect⟩ := same
  unfold State.GateLawful State.gateLaw State.writeServed State.supplyHigh at *
  rwa [seq, spindle, pos, supply, protect]

theorem stationClosed_sameGate (s : State) (p : Port) : StationClosed p s.SameGate where
  pins _ _ h := h
  ram _ _ h := h
  pool _ _ h := h
  station _ _ h := by cases p <;> exact h
  reservation _ _ h := h

/-! ### Commands that `finish` does not end -/

theorem command_gateLawful {s : State} {p : Port} {code tag : Byte} {blk : Block} {checks : List (Bool × Outcome)}
    {accept : State → State} (accepted : ∀ u, (accept u).GateLawful) (h : s.GateLawful) :
    (s.command p code tag blk checks accept).GateLawful := by
  have C := stationClosed_sameGate s p
  unfold State.command
  split
  · split
    · exact (C.respond (C.restartLimit (.refl s) p) _ _ _ _).lawful h
    · exact accepted _
  · exact h

theorem station_gateLawful {s : State} {p : Port} {code tag : Byte} {blk : Block} {checks : List (Bool × Outcome)}
    {accept : State → State} (accepted : ∀ u, s.SameGate u → s.SameGate (accept u)) (h : s.GateLawful) :
    (s.command p code tag blk checks accept).GateLawful :=
  ((stationClosed_sameGate s p).command (.refl s) _ _ _ _ accepted).lawful h

theorem execPowerOnReset_gateLawful {r : ResetReading} {s t : State} (done : execPowerOnReset r s = .next t) :
    t.GateLawful := by
  cases done
  have D := dryClosed (s.resetBase r).medium
  have base : (s.resetBase r).Dry (s.resetBase r).medium := ⟨rfl, rfl⟩
  have off : ((s.resetBase r).resetCustody r).Dry (s.resetBase r).medium :=
    ite_closed (ite_closed (D.enterSpinning (D.updCustody base _)) (D.updCustody base _)) base
  exact gateLawful_of_off off.1

theorem execDataFieldReached_gateLawful {header : HeaderReading} {s t : State} (h : s.GateLawful)
    (done : execDataFieldReached header s = .next t) : t.GateLawful := by
  obtain rfl := next_of_wf done
  split
  · exact h
  next o serving =>
    split
    · intro on
      have served (w : o.kind.writes = true ∨ s.seq.pass.isSome = true) :
          s.seq.pass.isSome || o.kind.writes := by simpa [or_comm] using w
      rcases (Bool.or_eq_true _ _).mp on with was | goesOn
      · obtain ⟨law, write⟩ := h was
        simp only [State.writeServed, serving, Bool.or_eq_true] at write
        exact ⟨law, served write.symm⟩
      · obtain ⟨writes, law⟩ := (Bool.and_eq_true _ _).mp goesOn
        exact ⟨law, served (.inl writes)⟩
    · exact h

theorem execFormatPassStart_gateLawful {s t : State} (h : s.GateLawful) (done : execFormatPassStart s = .next t) :
    t.GateLawful := by
  cases done
  split
  next due =>
    refine fun _ => ⟨?_, rfl⟩
    unfold State.passStartDue at due
    split at due
    · cases due
    · exact ((Bool.and_eq_true _ _).mp due).2
  · exact h

theorem execCheckBytesRecorded_gateLawful {s t : State} (h : s.GateLawful)
    (done : execCheckBytesRecorded s = .next t) : t.GateLawful := by
  cases done
  split
  · exact h
  · split
    · exact gateLawful_of_off rfl
    · exact h

/-- With the supply not high the gate is off by the law, and the supply may go on changing. -/
theorem supply_gateLawful {s : State} (x : Pins) (y : Supply) (low : s.supply.state ≠ .high) (h : s.GateLawful) :
    ({ s with pins := x, supply := y } : State).GateLawful := by
  refine gateLawful_of_off ?_
  show s.seq.gate = false
  by_contra on
  obtain ⟨law, -⟩ := h (by simpa using on)
  simp [State.gateLaw, State.supplyHigh, low] at law

theorem sameGate_pins (s : State) (x : Pins) : s.SameGate { s with pins := x } := ⟨rfl, rfl, rfl, rfl, rfl⟩

theorem sameGate_updCustody {s u : State} {f : Custody → Custody} (hf : ∀ x, (f x).protect = x.protect)
    (h : s.SameGate u) : s.SameGate (u.updCustody f) := by
  obtain ⟨seq, spindle, pos, supply, protect⟩ := h
  exact ⟨seq, spindle, pos, supply, (hf _).trans protect⟩

theorem execIndexEvent_gateLawful {order : IndexOrder} {s t : State} (h : s.GateLawful)
    (done : execIndexEvent order s = .next t) : t.GateLawful := by
  cases done
  split
  · exact h
  · exact finish_gateLawful _
  · exact finish_gateLawful _
  · exact finish_gateLawful _
  · exact State.SameGate.lawful ⟨rfl, rfl, rfl, rfl, rfl⟩ h
  · exact h

theorem execPresentSensorActive_gateLawful {m : Medium} {s t : State} (h : s.GateLawful)
    (done : execPresentSensorActive m s = .next t) : t.GateLawful := by
  obtain rfl := next_of_wf done
  split
  · exact h
  · dsimp only
    split
    · exact State.SameGate.lawful ⟨rfl, rfl, rfl, rfl, rfl⟩ h
    · exact (sameGate_pins s _).lawful h

theorem execPresentSensorInactive_gateLawful {s t : State} (h : s.GateLawful)
    (done : execPresentSensorInactive s = .next t) : t.GateLawful := by
  cases done
  split
  · exact finish_gateLawful _
  · split
    · exact finish_gateLawful _
    · exact (sameGate_pins s _).lawful h
  · exact finish_gateLawful _
  · exact finish_gateLawful _
  · exact (sameGate_pins s _).lawful h

theorem execReleaseAttemptStart_gateLawful {s t : State} (h : s.GateLawful)
    (done : execReleaseAttemptStart s = .next t) : t.GateLawful := by
  cases done
  have attempt : s.SameGate (if s.releasingDue then s.newAttempt else s) :=
    ite_closed (sameGate_updCustody (fun _ => rfl) (.refl s)) (.refl s)
  exact State.SameGate.lawful (ite_closed (sameGate_updCustody (fun _ => rfl) attempt) attempt) h

theorem execReleaseTimerExpiry_gateLawful {s t : State} (h : s.GateLawful)
    (done : execReleaseTimerExpiry s = .next t) : t.GateLawful := by
  cases done
  have stopped : s.SameGate (s.updCustody fun u => { u with releaseTimer := none }) :=
    sameGate_updCustody (fun _ => rfl) (.refl s)
  exact State.SameGate.lawful (ite_closed (ite_closed ⟨rfl, rfl, rfl, rfl, rfl⟩
    (ite_closed (sameGate_updCustody (fun _ => rfl) stopped) stopped)) (.refl s)) h

theorem execSupplyFallingEdge_gateLawful {s t : State} (h : s.GateLawful)
    (done : execSupplyFallingEdge s = .next t) : t.GateLawful := by
  cases done
  dsimp only
  split
  · exact finish_gateLawful _
  · exact (sameGate_pins s _).lawful h
  next recovering => exact supply_gateLawful _ _ (by simp [recovering]) h

theorem execSupplyRisingEdge_gateLawful {s t : State} (h : s.GateLawful)
    (done : execSupplyRisingEdge s = .next t) : t.GateLawful := by
  cases done
  dsimp only
  split
  next low => exact supply_gateLawful _ _ (by simp [low]) h
  · exact (sameGate_pins s _).lawful h
  · exact (sameGate_pins s _).lawful h

/-! ### Every command -/

theorem exec_gateLawful (c : Instr) (s t : State) (h : s.GateLawful) (done : exec c s = .next t) : t.GateLawful := by
  have C := stationClosed_sameGate s
  cases c with
  | powerOnReset r => exact execPowerOnReset_gateLawful done
  | portReset p =>
    cases done
    exact finish_gateLawful _
  | presenceLineLow p =>
    cases done
    exact ite_closed (finish_gateLawful _) h
  | presenceLineHigh p =>
    cases done
    exact State.SameGate.lawful (ite_closed (.refl s) ((C p).updStation (.refl s) _)) h
  | blockTimerExpiry p =>
    cases done
    exact State.SameGate.lawful (ite_closed ((C p).linkToIdle (.refl s)) (.refl s)) h
  | dataPhaseGapTimeout p =>
    cases done
    exact ite_closed (finish_gateLawful _) h
  | stallTimerExpiry p =>
    cases done
    exact State.SameGate.lawful (ite_closed ((C p).linkToIdle (.refl s)) (.refl s)) h
  | responseComplete p =>
    cases done
    exact State.SameGate.lawful (ite_closed ((C p).endOutbound (.refl s)) (.refl s)) h
  | noticeRecordTaken p =>
    cases done
    exact State.SameGate.lawful (ite_closed ((C p).endOutbound (.refl s)) (.refl s)) h
  | noticeRefill p =>
    cases done
    exact State.SameGate.lawful ((C p).updStation (.refl s) _) h
  | fetchDataComplete p =>
    cases done
    exact State.SameGate.lawful (ite_closed ((C p).endOutbound (.refl s)) (.refl s)) h
  | writeDataPhaseComplete p bytes =>
    obtain rfl := next_of_wf done
    split
    · exact ite_closed (finish_gateLawful _) h
    · exact h
  | mediaRecordPhaseComplete p bytes =>
    obtain rfl := next_of_wf done
    split
    · exact ite_closed (finish_gateLawful _) h
    · exact h
  | parameterPhaseComplete p bytes =>
    obtain rfl := next_of_wf done
    exact ite_closed (finish_gateLawful _) h
  | unknownCommand p code blk =>
    obtain rfl := next_of_wf done
    exact station_gateLawful (fun _ hu => hu) h
  | status p blk sensors =>
    cases done
    exact station_gateLawful (fun _ hu => (C p).respondWith ((C p).pins _ _ hu) _ _ _ _) h
  | fetchNotice p blk =>
    cases done
    exact station_gateLawful (fun _ hu => (C p).answerNotice hu) h
  | acknowledgeConditions p blk =>
    cases done
    exact station_gateLawful (fun _ hu => (C p).respond ((C p).updStation hu _) _ _ _ _) h
  | acceptMedium p blk =>
    cases done
    exact station_gateLawful (fun _ hu => (C p).respond ((C p).updStation hu _) _ _ _ _) h
  | reserve p blk =>
    cases done
    exact command_gateLawful (fun _ => finish_gateLawful _) h
  | release p blk =>
    cases done
    exact command_gateLawful (fun _ => finish_gateLawful _) h
  | lock p blk =>
    cases done
    exact station_gateLawful (fun _ hu => (C p).respond ((C p).updStation hu _) _ _ _ _) h
  | unlock p blk =>
    cases done
    exact station_gateLawful (fun _ hu => (C p).respond ((C p).updStation hu _) _ _ _ _) h
  | spinUp p blk =>
    cases done
    exact command_gateLawful (fun _ => finish_gateLawful _) h
  | spinDown p blk =>
    cases done
    exact command_gateLawful (fun _ => finish_gateLawful _) h
  | read p blk =>
    cases done
    exact command_gateLawful (fun _ => finish_gateLawful _) h
  | write p blk =>
    cases done
    exact command_gateLawful (fun _ => finish_gateLawful _) h
  | verify p blk =>
    cases done
    exact command_gateLawful (fun _ => finish_gateLawful _) h
  | fetchData p blk =>
    cases done
    exact station_gateLawful (fun _ hu => (C p).answerFetchData hu _) h
  | cancel p blk =>
    cases done
    exact command_gateLawful (fun _ => finish_gateLawful _) h
  | eject p blk =>
    cases done
    exact command_gateLawful (fun _ => finish_gateLawful _) h
  | readMediaRecord p blk =>
    cases done
    exact station_gateLawful (fun _ hu => (C p).respondWith hu _ _ _ _) h
  | writeMediaRecord p blk =>
    cases done
    exact command_gateLawful (fun _ => finish_gateLawful _) h
  | mapSpare p blk =>
    cases done
    exact command_gateLawful (fun _ => finish_gateLawful _) h
  | formatTrack p blk =>
    cases done
    exact command_gateLawful (fun _ => finish_gateLawful _) h
  | setParameters p blk =>
    cases done
    exact station_gateLawful (fun _ hu => (C p).beginPhase hu _ _) h
  | readParameters p blk =>
    cases done
    exact station_gateLawful (fun _ hu => (C p).respondWith hu _ _ _ _) h
  | indexEvent order => exact execIndexEvent_gateLawful h done
  | sectorStartEvent k =>
    obtain rfl := next_of_wf done
    exact ite_closed (finish_gateLawful _) h
  | operationEndPoint header data =>
    obtain rfl := next_of_wf done
    split
    · exact h
    · exact ite_closed (finish_gateLawful _) h
  | discardedEntryRemoval p =>
    cases done
    split
    · exact h
    · exact finish_gateLawful _
  | firstIndexTimerExpiry =>
    cases done
    exact ite_closed (finish_gateLawful _) h
  | lockTimerExpiry =>
    cases done
    exact ite_closed (finish_gateLawful _) h
  | indexAbsenceTimerExpiry =>
    cases done
    exact ite_closed (finish_gateLawful _) h
  | regainTimerExpiry =>
    cases done
    exact ite_closed (finish_gateLawful _) h
  | pendingFaultBrake =>
    cases done
    exact ite_closed (finish_gateLawful _) h
  | quietTimerExpiry =>
    cases done
    exact ite_closed (finish_gateLawful _) h
  | restartOnStopped =>
    cases done
    exact ite_closed (finish_gateLawful _) h
  | idleSecondElapsed =>
    cases done
    exact ite_closed (finish_gateLawful _) h
  | standbyBrake =>
    cases done
    exact ite_closed (finish_gateLawful _) h
  | coastingEnd =>
    cases done
    exact ite_closed (finish_gateLawful _) h
  | loadTimerExpiry =>
    cases done
    exact ite_closed (finish_gateLawful _) h
  | waitingTargetStart =>
    cases done
    split
    · exact ite_closed (finish_gateLawful _) h
    · exact h
  | stepIntervalExpiry sensor =>
    cases done
    split
    · exact ite_closed (finish_gateLawful _) h
    · exact h
  | creepIntervalExpiry sensor =>
    cases done
    split
    · exact ite_closed (finish_gateLawful _) h
    · exact h
  | settleTimerExpiry =>
    cases done
    exact ite_closed (finish_gateLawful _) h
  | heldRetractStart =>
    cases done
    exact ite_closed (finish_gateLawful _) h
  | sessionResume =>
    cases done
    exact ite_closed (finish_gateLawful _) h
  | arbiterChoice =>
    cases done
    exact ite_closed (finish_gateLawful _) h
  | formatPassStart => exact execFormatPassStart_gateLawful h done
  | presentSensorActive cartridge => exact execPresentSensorActive_gateLawful h done
  | presentSensorInactive => exact execPresentSensorInactive_gateLawful h done
  | debounceTimerExpiry =>
    cases done
    exact ite_closed (finish_gateLawful _) h
  | latchSensorLatched writeProtect =>
    cases done
    exact ite_closed (finish_gateLawful _) ((sameGate_pins s _).lawful h)
  | latchTimerExpiry =>
    cases done
    exact ite_closed (finish_gateLawful _) h
  | latchPulseEnd =>
    cases done
    exact State.SameGate.lawful (ite_closed (sameGate_updCustody (fun _ => rfl) (.refl s)) (.refl s)) h
  | mountStepLoading =>
    cases done
    exact ite_closed (finish_gateLawful _) h
  | drainComplete =>
    cases done
    exact ite_closed (finish_gateLawful _) h
  | unmountStopRequest =>
    cases done
    exact ite_closed (finish_gateLawful _) h
  | releaseAttemptStart => exact execReleaseAttemptStart_gateLawful h done
  | ejectPulseEnd =>
    cases done
    exact State.SameGate.lawful (ite_closed (sameGate_updCustody (fun _ => rfl) (.refl s)) (.refl s)) h
  | releaseTimerExpiry => exact execReleaseTimerExpiry_gateLawful h done
  | buttonDown =>
    cases done
    exact State.SameGate.lawful (ite_closed (.refl s) ⟨rfl, rfl, rfl, rfl, rfl⟩) h
  | buttonUp =>
    cases done
    exact ite_closed (finish_gateLawful _) ((sameGate_pins s _).lawful h)
  | holdTimerExpiry =>
    cases done
    exact ite_closed (finish_gateLawful _) h
  | attentionTimerExpiry =>
    cases done
    exact State.SameGate.lawful (ite_closed (sameGate_updCustody (fun _ => rfl) (.refl s)) (.refl s)) h
  | reservationIdleTimerExpiry =>
    cases done
    exact ite_closed (finish_gateLawful _) h
  | supplyFallingEdge => exact execSupplyFallingEdge_gateLawful h done
  | supplyRisingEdge => exact execSupplyRisingEdge_gateLawful h done
  | recoveryTimerExpiry =>
    cases done
    exact ite_closed (finish_gateLawful _) h
  | inboundByteTaken p byte =>
    cases done
    exact State.SameGate.lawful (ite_closed ((C p).takeByte (.refl s) _) (.refl s)) h
  | outboundByteTaken p =>
    cases done
    exact State.SameGate.lawful (ite_closed ((C p).updStation (.refl s) _) (.refl s)) h
  | dataFieldReached header => exact execDataFieldReached_gateLawful h done
  | checkBytesRecorded => exact execCheckBytesRecorded_gateLawful h done

/-- Settles O4: `finish` establishes the law, and the commands without it leave what it speaks of, but for those that
turn the gate on, which ask for the law, and the supply's, which find the gate off. -/
theorem stepKeepsGateLaw : Obligations.StepKeepsGateLaw := fun s t =>
  step_induction (P := State.GateLawful) (fun _ h => h) (fun _ _ h => h)
    (fun c s t h done => exec_gateLawful c s t h done)
    s t

end Sys2Proof.Machine
end

section
/-! SUPPORT. The machine's step, the reset state, command blocks, headers and the translation of tracks. -/

namespace Sys2Proof.Machine

/-! ### The machine -/

/-- Settles O1. -/
theorem stepRunsFrontCommand : Obligations.StepRunsFrontCommand := by
  intro s c rest waiting
  simp only [step, waiting]

/-- Settles O2. -/
theorem idleStepTakesWhatIsDue : Obligations.IdleStepTakesWhatIsDue := by
  intro s empty
  have idle : step s = s.idle := by simp only [step, empty]
  constructor
  · intro i due
    rw [idle, State.idle, due]
  · intro none
    rw [idle, State.idle, none]
    rfl

/-- Settles O6. -/
theorem resetMeetsTheLaws : Obligations.ResetMeetsTheLaws :=
  ⟨⟨⟨rfl, rfl⟩, resetContext_bounded true, resetContext_bounded true, ⟨rfl, rfl⟩, by decide, by decide⟩,
    gateLawful_of_off rfl, rfl⟩

/-! ### Command blocks (13.2) -/

/-- Settles O12: each block is evaluated. -/
theorem writtenBlocksDecode : Obligations.WrittenBlocksDecode := fun _ => ⟨rfl, rfl, rfl, rfl, rfl⟩

/-- A code outside 13.2 is not mistaken for a command. -/
theorem decodeCode_unknown {p : Port} {r : SensorReading} {code : Byte} {blk : Block} (unknown : code ∉ commandCodes) :
    decodeCode p r code blk = .unknownCommand p code blk := by
  simp only [commandCodes, List.mem_cons, List.not_mem_nil, or_false, not_or] at unknown
  simp only [decodeCode, unknown, ↓reduceIte]

/-- What a code decodes to is well formed, and is delivered by that code's block. -/
theorem decodeCode_encodes (p : Port) (r : SensorReading) (code : Byte) (blk : Block) :
    (decodeCode p r code blk).wf = true ∧ encodeBlock (decodeCode p r code blk) = some (blockBytes code blk) := by
  by_cases known : code ∈ commandCodes
  · simp only [commandCodes, List.mem_cons, List.not_mem_nil, or_false] at known
    rcases known with rfl | rfl | rfl | rfl | rfl | rfl | rfl | rfl | rfl | rfl | rfl | rfl | rfl | rfl | rfl | rfl |
      rfl | rfl | rfl | rfl | rfl | rfl <;> exact ⟨rfl, rfl⟩
  · rw [decodeCode_unknown known]
    exact ⟨by simp [Instr.wf, known], rfl⟩

/-- Settles O11: by the command in one direction, by the code in the other. -/
theorem blocksRoundTrip : Obligations.BlocksRoundTrip := by
  refine ⟨fun i p blk r station wf sensors => ?_, fun p r bytes eight => ?_⟩
  · cases i <;> cases station
    case refine_1.status.refl r' =>
      obtain rfl := sensors p blk r' rfl
      exact ⟨_, rfl, rfl, rfl⟩
    case refine_1.unknownCommand.refl code =>
      exact ⟨_, rfl, rfl, congrArg some (decodeCode_unknown (by simpa [Instr.wf] using wf))⟩
    all_goals exact ⟨_, rfl, rfl, rfl⟩
  · match bytes, eight with
    | [code, tag, b2, b3, b4, b5, b6, b7], _ =>
      obtain ⟨wf, encoded⟩ := decodeCode_encodes p r code ⟨tag, b2, b3, b4, b5, b6, b7⟩
      exact ⟨_, rfl, wf, encoded⟩

/-! ### Headers (R7) -/

theorem byteAt_even_iff (b : List Byte) (i : Nat) : byteAt b i % 2 = 0 ↔ (b.getD i 0).getLsbD 0 = false := by
  simp [byteAt, BitVec.getLsbD, Nat.testBit_zero]

/-- A header that is whole is judged by its position, its head, its sector. -/
theorem judgeHeader_of_good {p h k : Nat} {b : List Byte} (good : checkGood (b.take 5) (b.drop 5) = true)
    (present : (b.getD 4 0).getLsbD 0 = true) :
    judgeHeader p h k (some b) = if wordAt b 0 ≠ p then .trackMismatch else if byteAt b 2 ≠ h then .failed .headMismatch
      else if byteAt b 3 ≠ k then .failed .sectorMismatch else .matching := by
  have odd : byteAt b 4 % 2 ≠ 0 := fun even => by
    rw [(byteAt_even_iff b 4).1 even] at present
    cases present
  simp [judgeHeader, good, odd]

/-- Settles O14. -/
theorem headerJudgedInOrder : Obligations.HeaderJudgedInOrder := by
  refine ⟨fun p h k => ⟨rfl, ?_, ?_, ?_⟩, ?_⟩
  · intro b _ bad
    simp [judgeHeader, bad]
  · intro b _ good clear
    simp [judgeHeader, good, (byteAt_even_iff b 4).2 clear]
  · intro p' h' k' hp hh hk
    have position : wordAt (headerBytes p' h' k') 0 = p' := by
      show (byte (p' / 256)).toNat * 256 + (byte p').toNat = p'
      simp only [byte, BitVec.toNat_ofNat]
      omega
    have head : byteAt (headerBytes p' h' k') 2 = h' := by
      show (byte h').toNat = h'
      simp only [byte, BitVec.toNat_ofNat]
      omega
    have sector : byteAt (headerBytes p' h' k') 3 = k' := by
      show (byte k').toNat = k'
      simp only [byte, BitVec.toNat_ofNat]
      omega
    have good : checkGood ((headerBytes p' h' k').take 5) ((headerBytes p' h' k').drop 5) = true := beq_iff_eq.2 rfl
    have present : ((headerBytes p' h' k').getD 4 0).getLsbD 0 = true := by
      show (1#8).getLsbD 0 = true
      decide
    rw [judgeHeader_of_good good present, position, head, sector]
  · intro p h k b _ good present
    exact judgeHeader_of_good good present

/-! ### Translation (R14) -/

theorem translate_of_mapped {r : MediaRecord} {l i : Nat} {e : SpareEntry} (entry : r.spares[i]? = some e)
    (mapped : e.state = .mapped) (track : e.track = l)
    (first : ∀ j f, j < i → r.spares[j]? = some f → f.state = .mapped → f.track ≠ l) :
    translate (some r) l = 601 + i := by
  have found : (r.spares.findIdx? fun e => e.state == .mapped && e.track == l) = some i := by
    obtain ⟨inside, rfl⟩ := List.getElem?_eq_some_iff.1 entry
    rw [List.findIdx?_eq_some_iff_getElem]
    refine ⟨inside, by simp [mapped, track], fun j before => ?_⟩
    have other := first j r.spares[j] before (List.getElem?_eq_getElem _)
    simpa using other
  simp [translate, found]

theorem translate_of_unmapped {r : MediaRecord} {l : Nat} (home : ∀ e ∈ r.spares, e.state = .mapped → e.track ≠ l) :
    translate (some r) l = l + 1 := by
  have none : (r.spares.findIdx? fun e => e.state == .mapped && e.track == l) = none := by
    rw [List.findIdx?_eq_none_iff]
    simpa using home
  simp [translate, none]

/-- Settles O16: the first MAPPED entry of the track, or the home position. -/
theorem translationOfTracks : Obligations.TranslationOfTracks := by
  refine ⟨fun _ => rfl, fun r l i e => translate_of_mapped, fun r l => translate_of_unmapped, ?_⟩
  intro c l logical sixteen
  cases c with
  | none => exact ⟨Nat.le_add_left 1 l, by show l + 1 ≤ 616; omega⟩
  | some r =>
    unfold translate
    dsimp only
    split
    next i found =>
      obtain ⟨inside, -⟩ := List.findIdx?_eq_some_iff_getElem.1 found
      have := sixteen r rfl
      omega
    · omega

end Sys2Proof.Machine
end


section
/-! SUPPORT. The media record (R10 to R12): what stands where in its 512 bytes, and its eight tests. -/

namespace Sys2Proof.Machine

/-! ### Places of a record -/

theorem byteAt_drop (l : List Byte) (n i : Nat) : byteAt (l.drop n) i = byteAt l (n + i) := by
  simp [byteAt, List.getD_eq_getElem?_getD, List.getElem?_drop]

theorem wordAt_drop (l : List Byte) (n i : Nat) : wordAt (l.drop n) i = wordAt l (n + i) := by
  simp only [wordAt, byteAt_drop, Nat.add_assoc]

theorem byteAt_lt (l : List Byte) (i : Nat) : byteAt l i < 256 := BitVec.isLt _

theorem byte_toNat {n : Nat} (h : n < 256) : (byte n).toNat = n := by
  simpa [byte] using h

theorem byteAt_append_left {l m : List Byte} {i : Nat} (h : i < l.length) : byteAt (l ++ m) i = byteAt l i := by
  simp [byteAt, List.getD_eq_getElem?_getD, List.getElem?_append_left h]

theorem byteAt_append_right (l m : List Byte) (i : Nat) : byteAt (l ++ m) (l.length + i) = byteAt m i := by
  rw [← byteAt_drop, List.drop_left]

/-- A two-byte number reads back where it was put. -/
theorem wordAt_word16 {n : Nat} (h : n < 65536) (l : List Byte) : wordAt (word16 n ++ l) 0 = n := by
  show (byte (n / 256)).toNat * 256 + (byte n).toNat = n
  simp only [byte, BitVec.toNat_ofNat]
  omega

/-- The entries stand one after the other, three bytes each. -/
theorem byteAt_entries (l : List SpareEntry) (z : List Byte) {k j : Nat} {e : SpareEntry} (entry : l[k]? = some e)
    (inside : j < 3) : byteAt (l.flatMap SpareEntry.bytes ++ z) (3 * k + j) = byteAt e.bytes j := by
  induction l generalizing k with
  | nil => cases entry
  | cons x rest ih =>
    rw [List.flatMap_cons, List.append_assoc]
    cases k with
    | zero =>
      obtain rfl : x = e := by simpa using entry
      rw [Nat.mul_zero, Nat.zero_add]
      exact byteAt_append_left inside
    | succ k =>
      rw [show 3 * (k + 1) + j = x.bytes.length + (3 * k + j) by rw [SpareEntry.bytes_length]; omega,
        byteAt_append_right]
      exact ih (by simpa using entry)

/-! ### Reading back -/

section
variable {r : MediaRecord} (serial : r.serial.length = 4) (label : r.label.length = 16)

theorem bytes_drop3 : r.bytes.drop 3 = r.serial ++ (r.label ++ (word16 600 ++ ([byte 20] ++ (word16 r.writeCount ++
    (r.spares.flatMap SpareEntry.bytes ++ (List.replicate 434 0 ++ crcBytes r.body)))))) := by
  simp only [MediaRecord.bytes, MediaRecord.body, List.append_assoc]
  rfl

include serial in
theorem bytes_drop7 : r.bytes.drop 7 = r.label ++ (word16 600 ++ ([byte 20] ++ (word16 r.writeCount ++
    (r.spares.flatMap SpareEntry.bytes ++ (List.replicate 434 0 ++ crcBytes r.body))))) := by
  rw [show 7 = 3 + 4 from rfl, ← List.drop_drop, bytes_drop3, ← serial, List.drop_left]

include serial label in
theorem bytes_drop23 : r.bytes.drop 23 = word16 600 ++ ([byte 20] ++ (word16 r.writeCount ++
    (r.spares.flatMap SpareEntry.bytes ++ (List.replicate 434 0 ++ crcBytes r.body)))) := by
  rw [show 23 = 7 + 16 from rfl, ← List.drop_drop, bytes_drop7 serial, ← label, List.drop_left]

include serial label in
theorem bytes_drop26 : r.bytes.drop 26 = word16 r.writeCount ++
    (r.spares.flatMap SpareEntry.bytes ++ (List.replicate 434 0 ++ crcBytes r.body)) := by
  rw [show 26 = 23 + 3 from rfl, ← List.drop_drop, bytes_drop23 serial label]
  rfl

include serial label in
theorem bytes_drop28 : r.bytes.drop 28 =
    r.spares.flatMap SpareEntry.bytes ++ (List.replicate 434 0 ++ crcBytes r.body) := by
  rw [show 28 = 26 + 2 from rfl, ← List.drop_drop, bytes_drop26 serial label]
  rfl

include serial label in
theorem byteAt_spare {k j : Nat} {e : SpareEntry} (entry : r.spares[k]? = some e) (inside : j < 3) :
    byteAt r.bytes (28 + (3 * k + j)) = byteAt e.bytes j := by
  rw [← byteAt_drop, bytes_drop28 serial label, byteAt_entries _ _ entry inside]

end

theorem code_le (x : SpareState) : x.code ≤ 2 := by cases x <;> decide

theorem code_eq_zero_iff (x : SpareState) : x.code = 0 ↔ x = .free := by cases x <;> decide

theorem code_eq_one_iff (x : SpareState) : x.code = 1 ↔ x = .mapped := by cases x <;> decide

theorem byteAt_code (e : SpareEntry) : byteAt e.bytes 0 = e.state.code := by
  show (byte e.state.code).toNat = e.state.code
  exact byte_toNat (by have := code_le e.state; omega)

theorem wordAt_track {e : SpareEntry} (track : e.track < 65536) (free : e.state = .free → e.track = 0) :
    byteAt e.bytes 1 * 256 + byteAt e.bytes 2 = e.track := by
  have recorded : (if e.state = .free then 0 else e.track) = e.track := by
    split
    next h => rw [free h]
    · rfl
  show (byte (_ / 256)).toNat * 256 + (byte _).toNat = e.track
  rw [recorded]
  exact wordAt_word16 track []

/-- The code of an entry's state gives the state back. -/
theorem stateOf_code (x : SpareState) :
    (if x.code = 0 then SpareState.free else if x.code = 1 then .mapped else .retired) = x := by cases x <;> rfl

theorem spareAt_eq (b : List Byte) (k : Nat) : spareAt b k =
    ⟨if byteAt b (28 + 3 * k) = 0 then .free else if byteAt b (28 + 3 * k) = 1 then .mapped else .retired,
      byteAt b (29 + 3 * k) * 256 + byteAt b (30 + 3 * k)⟩ := by
  simp only [spareAt, wordAt, show 29 + 3 * k + 1 = 30 + 3 * k by omega]

theorem spareAt_bytes {r : MediaRecord} (serial : r.serial.length = 4) (label : r.label.length = 16) {k : Nat}
    {e : SpareEntry} (entry : r.spares[k]? = some e) (track : e.track < 65536) (free : e.state = .free → e.track = 0) :
    spareAt r.bytes k = e := by
  have code : byteAt r.bytes (28 + 3 * k) = e.state.code :=
    (byteAt_spare serial label entry (j := 0) (by decide)).trans (byteAt_code e)
  have upper : byteAt r.bytes (29 + 3 * k) = byteAt e.bytes 1 := by
    rw [← byteAt_spare serial label entry (j := 1) (by decide)]
    congr 1
    omega
  have lower : byteAt r.bytes (30 + 3 * k) = byteAt e.bytes 2 := by
    rw [← byteAt_spare serial label entry (j := 2) (by decide)]
    congr 1
    omega
  rw [spareAt_eq, code, upper, lower, wordAt_track track free, stateOf_code]

theorem bytes_length {r : MediaRecord} (serial : r.serial.length = 4) (label : r.label.length = 16)
    (spares : r.spares.length = 16) : r.bytes.length = 512 := by
  rw [MediaRecord.bytes, List.length_append, MediaRecord.body_length r serial label spares, crcBytes_length]

theorem decodeRecord_bytes {r : MediaRecord} (serial : r.serial.length = 4) (label : r.label.length = 16)
    (spares : r.spares.length = 16) (count : r.writeCount < 65536) (track : ∀ e ∈ r.spares, e.track < 65536)
    (free : ∀ e ∈ r.spares, e.state = .free → e.track = 0) : decodeRecord r.bytes = r := by
  have entries : (List.range 16).map (spareAt r.bytes) = r.spares := by
    refine List.ext_getElem (by simp [spares]) fun k h1 h2 => ?_
    rw [List.getElem_map, List.getElem_range]
    have mem := List.getElem_mem h2
    exact spareAt_bytes serial label (List.getElem?_eq_getElem h2) (track _ mem) (free _ mem)
  have counted : wordAt r.bytes 26 = r.writeCount := by
    rw [show 26 = 26 + 0 from rfl, ← wordAt_drop, bytes_drop26 serial label, wordAt_word16 count]
  unfold decodeRecord
  rw [bytes_drop3, bytes_drop7 serial, counted, entries, List.take_left' serial, List.take_left' label]

/-! ### The eight tests (R12) -/

theorem mappedOnce_iff (l : List SpareEntry) : mappedOnce l = true ↔
    l.Pairwise fun e f => e.state = .mapped → f.state = .mapped → e.track ≠ f.track := by
  induction l with
  | nil => simp [mappedOnce]
  | cons e rest ih =>
    rw [List.pairwise_cons, ← ih]
    simp only [mappedOnce, Bool.and_eq_true, Bool.not_eq_true', Bool.and_eq_false_iff, beq_eq_false_iff_ne,
      List.any_eq_false, beq_iff_eq, ne_eq, not_and]
    refine and_congr_left' ⟨fun h f mem mapped mapped' same => ?_, fun h => ?_⟩
    · rcases h with h | h
      · exact h mapped
      · exact h f mem mapped' same.symm
    · by_cases mapped : e.state = .mapped
      · exact .inr fun f mem mapped' same => h f mem mapped mapped' same.symm
      · exact .inl mapped

theorem spareAt_free (b : List Byte) (k : Nat) : (spareAt b k).state = .free ↔ byteAt b (28 + 3 * k) = 0 := by
  rw [spareAt_eq]
  dsimp only
  split
  · simp [*]
  · split <;> simp [*]

theorem spareAt_mapped (b : List Byte) (k : Nat) : (spareAt b k).state = .mapped ↔ byteAt b (28 + 3 * k) = 1 := by
  rw [spareAt_eq]
  dsimp only
  split
  · simp [*]
  · split <;> simp [*]

theorem take2_of_length {b : List Byte} (h : b.length = 512) :
    (b.drop 510).take 2 = [b.getD 510 0, b.getD 511 0] := by
  refine List.ext_getElem (by simp [h]) fun i h1 h2 => ?_
  have : i = 0 ∨ i = 1 := by simp at h2; omega
  rcases this with rfl | rfl <;> simp [List.getD_eq_getElem?_getD, h]

/-- The tests in the terms of the recorded bytes. -/
theorem validRecord_iff {b : List Byte} (h : b.length = 512) : validRecord b = true ↔
    crc (b.take 510) = b.getD 510 0 ++ b.getD 511 0 ∧ (byteAt b 0 = 0x5A ∧ byteAt b 1 = 0x3C) ∧ byteAt b 2 = 1 ∧
      wordAt b 23 = 600 ∧ byteAt b 25 = 20 ∧ (∀ k, k < 16 → byteAt b (28 + 3 * k) ≤ 2) ∧
      (∀ k, k < 16 → byteAt b (28 + 3 * k) ≠ 0 → (spareAt b k).track < 600) ∧
      (∀ i j, i < j → j < 16 → byteAt b (28 + 3 * i) = 1 → byteAt b (28 + 3 * j) = 1 →
        (spareAt b i).track ≠ (spareAt b j).track) := by
  have magic : wordAt b 0 = 0x5A3C ↔ byteAt b 0 = 0x5A ∧ byteAt b 1 = 0x3C := by
    have h0 := byteAt_lt b 0
    have h1 := byteAt_lt b 1
    simp only [wordAt, Nat.zero_add]
    omega
  have logical : (decodeRecord b).spares.all (fun e => e.state == .free || decide (e.track < 600)) = true ↔
      ∀ k, k < 16 → byteAt b (28 + 3 * k) ≠ 0 → (spareAt b k).track < 600 := by
    simp only [decodeRecord, List.all_map, List.all_eq_true, List.mem_range, Function.comp_apply, Bool.or_eq_true,
      beq_iff_eq, decide_eq_true_eq, spareAt_free]
    exact forall₂_congr fun _ _ => or_iff_not_imp_left
  have once : mappedOnce (decodeRecord b).spares = true ↔ ∀ i j, i < j → j < 16 → byteAt b (28 + 3 * i) = 1 →
      byteAt b (28 + 3 * j) = 1 → (spareAt b i).track ≠ (spareAt b j).track := by
    rw [mappedOnce_iff, decodeRecord, List.pairwise_map, List.pairwise_iff_getElem]
    simp only [List.getElem_range, List.length_range, spareAt_mapped]
    exact ⟨fun k i j before inside => k i j (before.trans inside) inside before,
      fun k i j _ inside before => k i j before inside⟩
  have codes : ((List.range 16).all fun s => byteAt b (28 + 3 * s) ≤ 2) = true ↔
      ∀ k, k < 16 → byteAt b (28 + 3 * k) ≤ 2 := by simp
  unfold validRecord
  simp only [Bool.and_eq_true, take2_of_length h, checkGood_iff_crc_eq, beq_iff_eq, magic, logical, once, codes,
    and_assoc]

/-- Settles O15. -/
theorem mediaRecordRoundTrip : Obligations.MediaRecordRoundTrip := by
  constructor
  · intro r serial label spares count track free
    have length := bytes_length serial label spares
    have entry (k : Nat) (h : k < r.spares.length) : spareAt r.bytes k = r.spares[k] :=
      spareAt_bytes serial label (List.getElem?_eq_getElem h) (track _ (List.getElem_mem h))
        (free _ (List.getElem_mem h))
    have code (k : Nat) (h : k < r.spares.length) : byteAt r.bytes (28 + 3 * k) = r.spares[k].state.code :=
      (byteAt_spare serial label (List.getElem?_eq_getElem h) (j := 0) (by decide)).trans (byteAt_code _)
    refine ⟨length, decodeRecord_bytes serial label spares count track free, ?_⟩
    have check : crc (r.bytes.take 510) = r.bytes.getD 510 0 ++ r.bytes.getD 511 0 := by
      have body : r.body.length = 510 := MediaRecord.body_length r serial label spares
      rw [← checkGood_iff_crc_eq, ← take2_of_length length, MediaRecord.bytes, List.take_left' body,
        List.drop_left' body]
      exact beq_iff_eq.2 rfl
    have head (i : Nat) (h : i < 3) : byteAt r.bytes i = byteAt [0x5A, 0x3C, 0x01] i := by
      simp only [MediaRecord.bytes, MediaRecord.body, List.append_assoc]
      exact byteAt_append_left h
    have tracks : wordAt r.bytes 23 = 600 := by
      rw [show 23 = 23 + 0 from rfl, ← wordAt_drop, bytes_drop23 serial label, wordAt_word16 (by decide)]
    have sectors : byteAt r.bytes 25 = 20 := by
      rw [show 25 = 23 + 2 from rfl, ← byteAt_drop, bytes_drop23 serial label]
      rfl
    have codes (k : Nat) (h : k < 16) : byteAt r.bytes (28 + 3 * k) ≤ 2 := by
      rw [code k (spares ▸ h)]
      exact code_le _
    rw [validRecord_iff length]
    simp only [check, head 0 (by decide), head 1 (by decide), head 2 (by decide), tracks, sectors, true_and]
    refine Iff.trans ⟨fun ⟨_, _, _, logical, once⟩ => ⟨logical, once⟩,
      fun ⟨logical, once⟩ => ⟨⟨rfl, rfl⟩, rfl, codes, logical, once⟩⟩ (and_congr ⟨?_, ?_⟩ ⟨?_, ?_⟩)
    · intro logical e mem used
      obtain ⟨k, inside, rfl⟩ := List.mem_iff_getElem.1 mem
      have := logical k (spares ▸ inside) (by rwa [code k inside, ne_eq, code_eq_zero_iff])
      rwa [entry k inside] at this
    · intro logical k inside used
      rw [← spares] at inside
      rw [entry k inside]
      exact logical _ (List.getElem_mem inside) (by rwa [code k inside, ne_eq, code_eq_zero_iff] at used)
    · intro once i j before inside e f he hf mapped mapped'
      obtain ⟨hi, rfl⟩ := List.getElem?_eq_some_iff.1 he
      obtain ⟨hj, rfl⟩ := List.getElem?_eq_some_iff.1 hf
      have := once i j before inside (by rw [code i hi, mapped]; rfl) (by rw [code j hj, mapped']; rfl)
      rwa [entry i hi, entry j hj] at this
    · intro once i j before inside mapped mapped'
      have hj : j < r.spares.length := spares ▸ inside
      have hi : i < r.spares.length := before.trans hj
      rw [entry i hi, entry j hj]
      rw [code i hi, code_eq_one_iff] at mapped
      rw [code j hj, code_eq_one_iff] at mapped'
      exact once i j before inside _ _ (List.getElem?_eq_getElem hi) (List.getElem?_eq_getElem hj) mapped mapped'
  · intro b length num track
    rw [validRecord_iff length]
    simp only [spareAt_eq]
    exact Iff.rfl

end Sys2Proof.Machine
end

section
/-! SUPPORT. Answers, delivery and checks of a station command; the parameter table; the resets' plain effects. -/

namespace Sys2Proof.Machine

/-! ### One context, changed twice -/

theorem State.updCtx_updCtx (s : State) (p : Port) (f g : PortContext → PortContext) :
    (s.updCtx p f).updCtx p g = s.updCtx p fun c => g (f c) := by cases p <;> rfl

theorem State.updCtx_congr {s : State} {p : Port} {f g : PortContext → PortContext} (h : f (s.ctx p) = g (s.ctx p)) :
    s.updCtx p f = s.updCtx p g := by
  rw [State.updCtx, State.updCtx, h]

/-- The port's context of a state that is put together from a changed one. -/
@[simp] theorem updCtx_link (s : State) (p : Port) (f : PortContext → PortContext) :
    (s.updCtx p f).link p = (f (s.ctx p)).link := by rw [State.link, State.updCtx_ctx]

theorem supplyHigh_iff (s : State) : s.supplyHigh = true ↔ s.supply.state = .high := by simp [State.supplyHigh]

/-! ### Composed answers (R157 to R160) -/

theorem respond_eq (s : State) (p : Port) (code tag : Byte) (o : Outcome) (detail : List Byte) :
    s.respond p code tag o detail = s.updCtx p fun c =>
      { c with
        lastRefusal := if o = .done ∨ o = .taken then c.lastRefusal else some o
        link := ⟨.responseOut, 0, 8, some ⟨s.time, 100000⟩, [],
          [code, tag, byte o.code] ++ detail ++ List.replicate (5 - detail.length) 0, [], .plain, c.link.strobe⟩ } := by
  unfold State.respond State.updLink
  rw [State.updCtx_updCtx]
  refine State.updCtx_congr ?_
  unfold PortContext.noteOutcome
  split <;> rfl

/-- Settles O18. -/
theorem answersAreComposed : Obligations.AnswersAreComposed :=
  ⟨fun s p code tag _ => ⟨respond_eq s p code tag, fun _ => rfl, fun _ => rfl⟩, rfl, rfl⟩

/-- Settles O20, by the supply and the spindle's state. -/
theorem spinRequestByState : Obligations.SpinRequestByState := by
  intro s
  refine ⟨fun low => ?_, fun high => ⟨fun stopped => ?_, fun taken => ?_, fun late => ?_⟩⟩
  · simp [State.spinRequest, State.supplyHigh, low]
  · simp [State.spinRequest, State.supplyHigh, high, stopped]
    rfl
  · rcases taken with e | e | ⟨e | e, fault, standby⟩ <;> simp [State.spinRequest, *]
  · rcases late with e | ⟨e | e, fault | standby⟩ <;> simp [State.spinRequest, State.supplyHigh, State.updSpindle, *]

/-! ### Delivery (R156, R159) -/

section
variable {s : State} {p : Port} {code tag : Byte} {blk : Block} {checks : List (Bool × Outcome)}
  {accept : State → State}

theorem command_of_undelivered (h : s.delivers p code blk = false) : s.command p code tag blk checks accept = s := by
  simp [State.command, h]

theorem command_of_refused {o : Outcome} (h : s.delivers p code blk = true) (fails : firstFail checks = some o) :
    s.command p code tag blk checks accept = (s.restartLimit p).respond p code tag o [] := by
  simp [State.command, h, fails]

theorem command_of_accepted (h : s.delivers p code blk = true) (passes : firstFail checks = none) :
    s.command p code tag blk checks accept = accept (s.restartLimit p) := by
  simp [State.command, h, passes]

theorem delivers_iff : s.delivers p code blk = true ↔ (s.ctx p).linkPresent = true ∧
    ((s.link p).state = .idle ∨ (s.link p).state = .receivingBlock ∧ (s.link p).received.length < 8 ∧
      ∃ rest, (s.link p).received ++ rest = blockBytes code blk) := by
  unfold State.delivers
  rw [Bool.and_eq_true]
  refine and_congr_right' ?_
  split
  next idle => simp [idle]
  next receiving =>
    simp only [receiving, Bool.and_eq_true, decide_eq_true_eq, List.isPrefixOf_iff_prefix]
    simp [List.IsPrefix]
  next idle receiving =>
    refine iff_of_false Bool.false_ne_true ?_
    rintro (h | ⟨h, -⟩)
    · exact idle h
    · exact receiving h

end

theorem exec_of_undelivered {c : Instr} {s : State} {p : Port} {code : Byte} {blk : Block}
    (station : commandBlock c = some (p, blk)) (hasCode : commandCode c = some code) (wf : c.wf = true)
    (undelivered : s.delivers p code blk = false) : exec c s = .next s := by
  cases c <;> cases station <;> cases hasCode
  case unknownCommand => exact (if_pos wf).trans (congrArg Host.Outcome.next (command_of_undelivered undelivered))
  all_goals exact congrArg Host.Outcome.next (command_of_undelivered undelivered)

/-- Settles O21. -/
theorem blocksAreDelivered : Obligations.BlocksAreDelivered := by
  refine ⟨fun c s p code blk station hasCode wf => ⟨delivers_iff, exec_of_undelivered station hasCode wf⟩,
    fun s p => ⟨fun r held holder => ?_, fun notHolder => ?_⟩⟩
  · simp [State.restartLimit, held, holder, State.limitTimer, State.startTimer]
  · unfold State.restartLimit
    split
    · rfl
    next r held => rw [if_neg (notHolder r held)]

/-- Settles O22. -/
theorem unknownCodeIsRefused : Obligations.UnknownCodeIsRefused := by
  intro s p code blk unknown delivered
  have wf : (Instr.unknownCommand p code blk).wf = true := by simp [Instr.wf, unknown]
  exact (if_pos wf).trans (congrArg Host.Outcome.next (command_of_refused delivered rfl))

/-! ### The parameter table (R45, R138) -/

theorem clamp_eq {x lo hi : Nat} (h : lo ≤ hi) : clamp x lo hi = max lo (min hi x) := by
  unfold clamp
  split_ifs <;> omega

theorem clamp_bounds {x lo hi : Nat} (h : lo ≤ hi) : lo ≤ clamp x lo hi ∧ clamp x lo hi ≤ hi := by
  rw [clamp_eq h]
  omega

theorem conditionFrom_length (lo hi : Nat) (l : List Nat) : (conditionFrom lo hi l).length = l.length := by
  induction l generalizing hi with
  | nil => rfl
  | cons x rest ih => simp [conditionFrom, ih]

theorem conditionFrom_bounds {lo hi : Nat} (l : List Nat) (h : lo ≤ hi) :
    ∀ x ∈ conditionFrom lo hi l, lo ≤ x ∧ x ≤ hi := by
  induction l generalizing hi with
  | nil => simp [conditionFrom]
  | cons y rest ih =>
    obtain ⟨above, below⟩ := clamp_bounds (x := y) h
    intro x mem
    rcases List.mem_cons.1 mem with rfl | mem
    · exact ⟨above, below⟩
    · obtain ⟨lower, upper⟩ := ih above x mem
      exact ⟨lower, upper.trans below⟩

/-- Each interval after the first is clamped below the one before it. -/
theorem conditionFrom_succ (lo hi : Nat) (l : List Nat) (i : Nat) :
    (conditionFrom lo hi l)[i + 1]? =
      (l[i + 1]?).map fun x => clamp x lo ((conditionFrom lo hi l).getD i 0) := by
  induction l generalizing hi i with
  | nil => rfl
  | cons x rest ih =>
    cases i with
    | zero => cases rest <;> simp [conditionFrom]
    | succ i => simpa [conditionFrom] using ih (clamp x lo hi) i

theorem readParameters_outPhase {s : State} {p : Port} {blk : Block} (delivered : s.delivers p 0x31 blk = true)
    (high : s.supply.state = .high) :
    ∃ t, exec (.readParameters p blk) s = .next t ∧ (t.link p).outPhase = s.params.bytes := by
  refine ⟨_, congrArg Host.Outcome.next (command_of_accepted delivered ?_), ?_⟩
  · simp [firstFail, State.supplyHigh, high]
  · obtain ⟨r, hr⟩ := restartLimit_frame s p
    rw [hr]
    simp [State.respondWith, State.updLink, Link.startResponse]

/-- Settles O17. -/
theorem writtenParametersAreConditioned : Obligations.WrittenParametersAreConditioned := by
  refine ⟨fun b => ?_, fun r s t done => ?_, fun s => rfl, fun s p blk => readParameters_outPhase, ?_, ?_⟩
  · have low : clamp (wordAt b 33) 500 5000 ≤ 20000 := by
      have := (clamp_bounds (x := wordAt b 33) (show 500 ≤ 5000 by decide)).2
      omega
    have length : (paramsOf b).intervals.length = 16 := by simp [paramsOf, conditionFrom_length]
    have bounds : ∀ x ∈ (paramsOf b).intervals, (paramsOf b).minInterval ≤ x ∧ x ≤ 20000 :=
      conditionFrom_bounds _ low
    have next (i : Nat) (h : i < 15) : (paramsOf b).intervals[i + 1]? =
        some (max (paramsOf b).minInterval (min ((paramsOf b).intervals.getD i 0) (wordAt b (1 + 2 * (i + 1))))) := by
      have before : (paramsOf b).minInterval ≤ (paramsOf b).intervals.getD i 0 := by
        rw [List.getD_eq_getElem _ _ (by omega)]
        exact (bounds _ (List.getElem_mem _)).1
      rw [← clamp_eq before]
      refine (conditionFrom_succ _ _ _ i).trans ?_
      rw [List.getElem?_map, List.getElem?_range (by omega)]
      rfl
    refine ⟨?_, ?_, ?_, ?_, ?_, ?_, length, ?_, next, ?_, bounds⟩
    · exact clamp_eq (by decide)
    · exact clamp_eq (by decide)
    · exact clamp_eq (by decide)
    · exact clamp_eq (by decide)
    · exact (clamp_eq (lo := 0) (hi := 7) (by decide)).trans (Nat.zero_max _)
    · have := byteAt_lt b 39
      refine (clamp_eq (lo := 0) (hi := 255) (by decide)).trans ?_
      omega
    · exact congrArg some (clamp_eq low)
    · intro i h
      have follows := next i h
      rw [List.getElem?_eq_getElem (by omega), Option.some_inj] at follows
      have before : (paramsOf b).minInterval ≤ (paramsOf b).intervals.getD i 0 := by
        rw [List.getD_eq_getElem _ _ (by omega)]
        exact (bounds _ (List.getElem_mem _)).1
      rw [List.getD_eq_getElem _ _ (by omega), follows]
      omega
  · cases done
    have kept : ((s.resetBase r).resetCustody r).params = Params.default :=
      (State.Kept.sustains (kept_resetCustody _ _ r (.refl (s.resetBase r)))).params
    have params : ∀ t : State, t.params = Params.default → t.params.entries = 8 ∧ t.params.minInterval = 1400 ∧
        t.params.settle = 15000 ∧ t.params.lead = 2 ∧ t.params.defaultRetry = 3 ∧ t.params.standbyLimit = 30 ∧
        t.params.intervals =
          [5000, 3500, 2700, 2200, 1900, 1700, 1550, 1450, 1450, 1450, 1450, 1450, 1450, 1450, 1450, 1450] ∧
        paramsOf t.params.bytes = t.params := by
      intro t h
      rw [h]
      exact ⟨rfl, rfl, rfl, rfl, rfl, rfl, rfl, by decide +kernel⟩
    exact params _ kept
  · intro s p bytes some few present phase parameters ends
    have wf : (Instr.parameterPhaseComplete p bytes).wf = true := by simp [Instr.wf, some, few]
    refine ⟨_, if_pos wf, ?_⟩
    have due : (s.phaseEndsWith p bytes && (s.link p).work == .parameters) = true := by
      simp [State.phaseEndsWith, present, phase, parameters, ends]
    rw [if_pos due]
    exact (kept_finish _ _ (kept_respond _ _ p 0x30 0 .done []
      (.refl { s with params := paramsOf ((s.link p).received ++ bytes) }))).sustains.params
  · intro s t p done
    exact (exec_sustains _ s t done (fun _ h => by cases h) (fun _ _ h => by cases h)).params

/-! ### Resets -/

/-- Settles O44. -/
theorem powerOnResetState : Obligations.PowerOnResetState := by
  intro s r
  refine ⟨fun absent => ?_, fun present loose => ?_, fun present latched => ?_, ?_⟩
  · exact congrArg Host.Outcome.next (if_neg (by simp [absent]))
  · exact congrArg Host.Outcome.next ((if_pos present).trans (if_neg (by simp [loose])))
  · refine congrArg Host.Outcome.next ((if_pos present).trans ((if_pos latched).trans ?_))
    cases high : r.comparatorHigh <;> simp [State.enterSpinning, State.updCustody, State.supplyHigh, latched] <;> rfl
  · refine ⟨rfl, rfl, rfl, rfl, rfl, rfl, rfl, rfl, rfl, rfl, rfl, rfl, rfl, rfl, rfl, rfl, rfl, rfl, rfl, rfl, rfl, rfl,
      rfl, rfl, rfl, rfl, rfl, rfl, rfl, rfl, fun k => ?_, rfl⟩
    show (List.replicate 20 Slot.blank).getD k Slot.blank = Slot.blank
    simp only [List.getD_eq_getElem?_getD, List.getElem?_replicate]
    split <;> rfl

/-- Settles O46. -/
theorem presenceLines : Obligations.PresenceLines := by
  intro s p
  refine ⟨rfl, fun present => ⟨?_, ?_⟩, fun absent => ⟨?_, ?_⟩⟩
  · exact congrArg Host.Outcome.next (if_pos present)
  · exact congrArg Host.Outcome.next (if_pos present)
  · exact congrArg Host.Outcome.next (if_neg (by simp [absent]))
  · refine congrArg Host.Outcome.next ((if_neg (by simp [absent])).trans (State.updCtx_congr ?_))
    simp [Conditions.join, State.persisting, State.supplyHigh, beq_eq_decide]

/-! ### The index event outside regulation -/

theorem exec_indexEvent_starting {s : State} (o : IndexOrder) (starting : s.spindle.state = .starting) :
    exec (.indexEvent o) s = .next s.indexStarting.finish := by
  simp only [exec, execIndexEvent, starting]

/-- Settles O47, by the spindle's state and, in STARTING, by the period. -/
theorem indexEventOutsideRegulation : Obligations.IndexEventOutsideRegulation := by
  intro s o
  refine ⟨fun still => ?_, fun braking => ?_, fun starting long => ?_, fun starting a last short => ?_⟩
  · rcases still with e | e <;> simp [exec, execIndexEvent, e]
  · simp [exec, execIndexEvent, braking, State.updSpindle, State.startTimer]
  · refine (exec_indexEvent_starting o starting).trans (congrArg (fun t : State => Host.Outcome.next t.finish) ?_)
    cases last : s.spindle.lastIndex with
    | none =>
      simp only [State.indexStarting, State.updSpindle, Spindle.takeIndex, last, Option.map_none]
      rfl
    | some a =>
      have far : ¬ elapsed a s.time ≤ 21000 := not_le.2 (long a last)
      simp only [State.indexStarting, State.updSpindle, Spindle.takeIndex, last, Option.map_some, far, ↓reduceIte]
      rfl
  · refine (exec_indexEvent_starting o starting).trans (congrArg (fun t : State => Host.Outcome.next t.finish) ?_)
    have near : elapsed a s.time ≤ 21000 := short
    simp only [State.indexStarting, State.updSpindle, Spindle.takeIndex, last, Option.map_some, near, ↓reduceIte]
    rfl

end Sys2Proof.Machine
end

section
/-! SUPPORT. The checks of the station commands in the terms of the state, and the commands that are judged by them. -/

namespace Sys2Proof.Machine

/-! ### What the timer's restart leaves (R118) -/

section
variable (s : State) (p : Port)

/-- What a restart of the timer leaves of one field. -/
theorem restartLimit_field {α : Type} (f : State → α) (hf : ∀ r, f { s with reservation := r } = f s) :
    f (s.restartLimit p) = f s := by
  obtain ⟨r, hr⟩ := restartLimit_frame s p
  rw [hr, hf]

@[simp] theorem restartLimit_time : (s.restartLimit p).time = s.time := restartLimit_field s p State.time fun _ => rfl
@[simp] theorem restartLimit_pins : (s.restartLimit p).pins = s.pins := restartLimit_field s p State.pins fun _ => rfl
@[simp] theorem restartLimit_spindle : (s.restartLimit p).spindle = s.spindle :=
  restartLimit_field s p State.spindle fun _ => rfl
@[simp] theorem restartLimit_session : (s.restartLimit p).session = s.session :=
  restartLimit_field s p State.session fun _ => rfl
@[simp] theorem restartLimit_slots : (s.restartLimit p).slots = s.slots :=
  restartLimit_field s p State.slots fun _ => rfl
@[simp] theorem restartLimit_pool : (s.restartLimit p).pool = s.pool := restartLimit_field s p State.pool fun _ => rfl
@[simp] theorem restartLimit_ram : (s.restartLimit p).ram = s.ram := restartLimit_field s p State.ram fun _ => rfl
@[simp] theorem restartLimit_custody : (s.restartLimit p).custody = s.custody :=
  restartLimit_field s p State.custody fun _ => rfl
@[simp] theorem restartLimit_copy : (s.restartLimit p).copy = s.copy := restartLimit_field s p State.copy fun _ => rfl
@[simp] theorem restartLimit_supply : (s.restartLimit p).supply = s.supply :=
  restartLimit_field s p State.supply fun _ => rfl
@[simp] theorem restartLimit_params : (s.restartLimit p).params = s.params :=
  restartLimit_field s p State.params fun _ => rfl
@[simp] theorem restartLimit_persisting : (s.restartLimit p).persisting = s.persisting :=
  restartLimit_field s p State.persisting fun _ => rfl
@[simp] theorem restartLimit_ctx (q : Port) : (s.restartLimit p).ctx q = s.ctx q :=
  restartLimit_field s p (fun t => t.ctx q) fun _ => by cases q <;> rfl

/-- The holder and the mode stand. -/
@[simp] theorem restartLimit_holdsIn (q : Port) (m : ReserveMode) :
    (s.restartLimit p).holdsIn q m = s.holdsIn q m := by
  unfold State.restartLimit
  split
  · rfl
  next r held =>
    split
    · simp [State.holdsIn, held]
    · rfl

end

/-! ### The reservation as the checks see it -/

theorem otherHolds_eq_false {s : State} {p : Port} : s.otherHolds p = false ↔ s.FreeFor p := by
  unfold State.otherHolds State.holds State.FreeFor
  cases s.reservation with
  | none => simp
  | some r => cases p <;> cases h : r.holder <;> simp [Port.other, h]

theorem otherHolds_eq_true {s : State} {p : Port} : s.otherHolds p = true ↔ ¬ s.FreeFor p := by
  rw [← otherHolds_eq_false, Bool.not_eq_false]

theorem exclusiveOther_eq_false {s : State} {p : Port} : s.holdsIn p.other .exclusive = false ↔ s.OpenTo p := by
  unfold State.holdsIn State.OpenTo
  cases s.reservation with
  | none => simp
  | some r => cases p <;> cases h : r.holder <;> cases k : r.mode <;> simp [Port.other, h, k]

theorem exclusiveOther_eq_true {s : State} {p : Port} : s.holdsIn p.other .exclusive = true ↔ ¬ s.OpenTo p := by
  rw [← exclusiveOther_eq_false, Bool.not_eq_false]

theorem holds_eq_true {s : State} {p : Port} : s.holds p = true ↔ ∃ r, s.reservation = some r ∧ r.holder = p := by
  unfold State.holds
  cases s.reservation <;> simp

theorem holds_eq_false {s : State} {p : Port} :
    s.holds p = false ↔ ∀ r, s.reservation = some r → r.holder ≠ p := by
  unfold State.holds
  cases s.reservation <;> simp

theorem holdsIn_eq_true {s : State} {p : Port} {m : ReserveMode} :
    s.holdsIn p m = true ↔ ∃ r, s.reservation = some r ∧ r.holder = p ∧ r.mode = m := by
  unfold State.holdsIn
  cases s.reservation <;> simp

/-! ### A command's three ends -/

section
variable {s : State} {p : Port} {code tag : Byte} {blk : Block} {checks : List (Bool × Outcome)}
  {accept : State → State}

theorem next_of_refused {o : Outcome} (h : s.delivers p code blk = true) (fails : firstFail checks = some o) :
    (.next (s.command p code tag blk checks accept) : Host.Outcome State Fault Refusal) =
      .next ((s.restartLimit p).respond p code tag o []) := congrArg Host.Outcome.next (command_of_refused h fails)

theorem next_of_accepted {t : State} (h : s.delivers p code blk = true) (passes : firstFail checks = none)
    (result : accept (s.restartLimit p) = t) :
    (.next (s.command p code tag blk checks accept) : Host.Outcome State Fault Refusal) = .next t := by
  rw [command_of_accepted h passes, result]

end

theorem reserveMode_eq_none {b : Block} : reserveMode b = none ↔ b.mode ≠ 1 ∧ b.mode ≠ 2 := by
  unfold reserveMode
  split_ifs <;> simp [*]

theorem reserveMode_of_code {b : Block} {m : ReserveMode} (h : b.mode = m.code) : reserveMode b = some m := by
  cases m <;> simp [reserveMode, h, ReserveMode.code]

theorem fields_firstSector {b : Block} : firstSector b ≠ none ↔ b.b5 = 0xFF ∨ b.b5.toNat ≤ 19 := by
  unfold firstSector
  split_ifs with all few
  · exact iff_of_true (Option.some_ne_none _) (.inl all)
  · exact iff_of_true (Option.some_ne_none _) (.inr few)
  · exact iff_of_false (fun h => h rfl) (not_or_intro all few)

theorem fields_retryLimit {b : Block} {d : Nat} : retryLimit b d ≠ none ↔ b.b7 = 0xFF ∨ b.b7.toNat ≤ 7 := by
  unfold retryLimit
  split_ifs with all few
  · exact iff_of_true (Option.some_ne_none _) (.inl all)
  · exact iff_of_true (Option.some_ne_none _) (.inr few)
  · exact iff_of_false (fun h => h rfl) (not_or_intro all few)

/-- The range check of a transfer's fields (R58). -/
theorem transferBad_eq_false {b : Block} {d : Nat} : transferBad b d = false ↔ TransferFields b := by
  unfold transferBad TransferFields
  rw [← fields_firstSector, ← fields_retryLimit (d := d)]
  simp only [Bool.or_eq_false_iff, decide_eq_false_iff_not, not_lt, Option.isNone_eq_false_iff,
    Option.isSome_iff_ne_none,
    and_assoc, Nat.one_le_iff_ne_zero, ne_eq]

theorem transferBad_eq_true {b : Block} {d : Nat} : transferBad b d = true ↔ ¬ TransferFields b := by
  rw [← transferBad_eq_false (d := d), Bool.not_eq_false]

theorem entry?_isSome_eq_false {s : State} {p : Port} {tag : Byte} :
    (s.entry? p tag).isSome = false ↔ ∀ e ∈ (s.ctx p).queue, e.tag ≠ tag := by
  rw [Option.isSome_eq_false_iff, Option.isNone_iff_eq_none, entry?_eq_none]

/-- Settles O23: the supply's check stands first, or behind checks that the hypotheses pass. -/
theorem supplyLowRefusesCommands : Obligations.SupplyLowRefusesCommands := by
  intro s p b low
  have notHigh : s.supplyHigh = false := by simpa [State.supplyHigh] using low
  have supply : (!s.supplyHigh) = true := by simp [notHigh]
  refine ⟨?plain, ?tagged, ?transfers, ?moded, fun d field => ?_, fun d track head => ?_⟩
  case plain =>
    simp only [List.forall_mem_cons, List.not_mem_nil, false_implies, implies_true, and_true]
    refine ⟨?_, ?_, ?_, ?_, ?_, ?_, ?_, ?_⟩ <;> exact fun d => next_of_refused d (by simp [firstFail, notHigh])
  case tagged =>
    simp only [List.forall_mem_cons, List.not_mem_nil, false_implies, implies_true, and_true]
    exact ⟨fun d => next_of_refused d (by simp [firstFail, notHigh]),
      fun d => next_of_refused d (by simp [firstFail, State.maintChecks, notHigh])⟩
  case transfers =>
    simp only [List.forall_mem_cons, List.not_mem_nil, false_implies, implies_true, and_true]
    have passed (op : XferOp) (fields : TransferFields b) (fresh : ∀ e ∈ (s.ctx p).queue, e.tag ≠ b.tag) :
        firstFail (s.transferChecks p op b) = some .supplyLow := by
      simp [State.transferChecks, firstFail, transferBad_eq_false.2 fields, entry?_isSome_eq_false.2 fresh, notHigh]
    exact ⟨fun d fields fresh => next_of_refused d (passed _ fields fresh),
      fun d fields fresh => next_of_refused d (passed _ fields fresh),
      fun d fields fresh => next_of_refused d (passed _ fields fresh)⟩
  case moded =>
    simp only [List.forall_mem_cons, List.not_mem_nil, false_implies, implies_true, and_true]
    refine ⟨fun d mode => next_of_refused d ?_, fun d mode => next_of_refused d ?_⟩
    · have known : (reserveMode b).isNone = false := by
        rw [Option.isNone_eq_false_iff, Option.isSome_iff_ne_none, ne_eq, reserveMode_eq_none]
        tauto
      simp [firstFail, known, notHigh]
    · rcases mode with mode | mode <;> simp [State.ejectChecks, firstFail, mode, notHigh]
  · exact next_of_refused d (by simp [State.maintChecks, firstFail, notHigh, field])
  · exact next_of_refused d (by simp [State.maintChecks, firstFail, notHigh, track, head])

/-! ### Conditions (R152) -/

theorem conditions_bits (c : Conditions) : (byte c.code).getLsbD 0 = c.speedLost ∧
    (byte c.code).getLsbD 1 = c.spindleFault ∧ (byte c.code).getLsbD 2 = c.positionUncertain ∧
    (byte c.code).getLsbD 3 = c.recalFailed ∧ (byte c.code).getLsbD 4 = c.supplyLow ∧
    (byte c.code).getLsbD 5 = c.ejectJammed := by
  obtain ⟨speed, fault, uncertain, recal, supply, jammed⟩ := c
  revert speed fault uncertain recal supply jammed
  decide

/-- Settles O25. -/
theorem acknowledgeConditionsByMask : Obligations.AcknowledgeConditionsByMask := by
  intro s p b delivered
  refine ⟨(s.ctx p).conditions.acknowledge s.persisting b.b2, next_of_accepted delivered rfl ?_,
    ⟨rfl, rfl, rfl, rfl, rfl, rfl⟩, conditions_bits _⟩
  simp only [restartLimit_ctx, restartLimit_persisting]

/-! ### ACCEPT MEDIUM, LOCK, UNLOCK -/

/-- Settles O26: each custody state in turn. -/
theorem acceptLockAndUnlock : Obligations.AcceptLockAndUnlock := by
  intro s p b
  refine ⟨fun d high ready => ?_, fun d high custody => ⟨fun known free => ?_, fun stale => ?_, fun known held => ?_⟩,
    ⟨fun d high => ⟨fun jam => ?_, fun none => ?_, fun leaves => ?_⟩,
      fun d high => ⟨fun jam => ?_, fun none => ?_, fun leaves stale => ?_, fun leaves known => ?_⟩⟩, fun d => ?_⟩
  · refine next_of_accepted d ?_ (by simp only [restartLimit_custody])
    rcases ready with e | e <;>
      simp [firstFail, State.supplyHigh, State.jammed, State.noMountedMedium, State.noMedium, State.ejecting,
        State.leaving, high, e]
  · refine next_of_accepted d ?_ rfl
    rcases custody with e | e | e <;>
      simp [firstFail, State.supplyHigh, State.jammed, State.noMedium, State.ejecting, State.leaving,
        State.staleGeneration, high, e, known, otherHolds_eq_false.2 free]
  · refine next_of_refused d ?_
    rcases custody with e | e | e <;>
      simp [firstFail, State.supplyHigh, State.jammed, State.noMedium, State.staleGeneration, high, e, stale]
  · refine next_of_refused d ?_
    rcases custody with e | e | e <;>
      simp [firstFail, State.supplyHigh, State.jammed, State.noMedium, State.ejecting, State.leaving,
        State.staleGeneration, high, e, known, otherHolds_eq_true.2 held]
  · exact next_of_refused d (by simp [firstFail, State.supplyHigh, State.jammed, high, jam])
  · refine next_of_refused d ?_
    rcases none with e | e | e <;>
      simp [firstFail, State.supplyHigh, State.jammed, State.noMountedMedium, State.noMedium, high, e]
  · refine next_of_refused d ?_
    rcases leaves with e | e | e <;>
      simp [firstFail, State.supplyHigh, State.jammed, State.noMountedMedium, State.noMedium, State.ejecting,
        State.leaving, high, e]
  · exact next_of_refused d (by simp [firstFail, State.supplyHigh, State.jammed, high, jam])
  · refine next_of_refused d ?_
    rcases none with e | e <;> simp [firstFail, State.supplyHigh, State.jammed, State.noMedium, high, e]
  · refine next_of_refused d ?_
    rcases leaves with e | e | e <;>
      simp [firstFail, State.supplyHigh, State.jammed, State.noMedium, State.staleGeneration, high, e, stale]
  · refine next_of_refused d ?_
    rcases leaves with e | e | e <;>
      simp [firstFail, State.supplyHigh, State.jammed, State.noMedium, State.staleGeneration, State.ejecting,
        State.leaving, high, e, known]
  · exact next_of_accepted d rfl rfl

/-! ### RESERVE and RELEASE -/

/-- The record written anew, and, where the holder or the mode changes, what follows. -/
theorem takeReservation_restartLimit (s : State) (p : Port) (m : ReserveMode) (n : Nat) :
    (s.restartLimit p).takeReservation p m n =
      let timer : Option Timer := if n = 0 then none else some ⟨s.time, n * 1000000⟩
      let v : State := { s with reservation := some ⟨p, m, n, timer⟩ }
      if s.holdsIn p m then v else (v.post p.other (.reservationTaken m)).judgeJoins := by
  obtain ⟨r, hr⟩ := restartLimit_frame s p
  unfold State.takeReservation
  rw [restartLimit_holdsIn, hr]
  cases s.holdsIn p m <;> rfl

/-- Settles O27. -/
theorem reserveAndRelease : Obligations.ReserveAndRelease := by
  refine ⟨fun s p b m high => ⟨fun d mode => ⟨fun free other => ?_, fun r held holder same => ?_, fun held => ?_⟩,
    fun d => ⟨fun r held holder => ?_, fun notHolder => ?_⟩⟩, fun s p b d other other' => ?_⟩
  · refine next_of_accepted d ?_ ?_
    · simp [firstFail, State.supplyHigh, high, reserveMode_of_code mode, otherHolds_eq_false.2 free]
    · have changes : s.holdsIn p m = false := by
        rw [← Bool.not_eq_true, holdsIn_eq_true]
        rintro ⟨r, held, -, same⟩
        exact other r held same
      simp only [reserveMode_of_code mode, Option.getD_some, takeReservation_restartLimit, changes]
      rfl
  · refine next_of_accepted d ?_ ?_
    · have free : s.FreeFor p := fun r' held' => by
        obtain rfl : r = r' := Option.some_inj.1 (held.symm.trans held')
        exact holder
      simp [firstFail, State.supplyHigh, high, reserveMode_of_code mode, otherHolds_eq_false.2 free]
    · have keeps : s.holdsIn p m = true := holdsIn_eq_true.2 ⟨r, held, holder, same⟩
      simp only [reserveMode_of_code mode, Option.getD_some, takeReservation_restartLimit, keeps]
      rfl
  · exact next_of_refused d
      (by simp [firstFail, State.supplyHigh, high, reserveMode_of_code mode, otherHolds_eq_true.2 held])
  · have holds : s.holds p = true := holds_eq_true.2 ⟨r, held, holder⟩
    refine next_of_accepted d (by simp [firstFail, State.supplyHigh, high, holds]) ?_
    simp [State.freeReservation, State.restartLimit, held, holder, State.reservationChanged]
  · exact next_of_refused d (by simp [firstFail, State.supplyHigh, high, holds_eq_false.2 notHolder])
  · exact next_of_refused d (by simp [firstFail, reserveMode_eq_none.2 ⟨other, other'⟩])

/-! ### SPIN UP and SPIN DOWN -/

/-- Settles O28. -/
theorem spinUpAndSpinDown : Obligations.SpinUpAndSpinDown := by
  intro s p b high
  refine ⟨fun d custody isOpen => ?_, fun d custody free => ?_,
    fun d => ⟨fun jam => ?_, fun none => ?_, fun leaves => ?_, fun custody closed => ?_⟩,
    fun d => ⟨fun jam => ?_, fun none => ?_, fun leaves => ?_, fun custody held => ?_⟩⟩
  · refine next_of_accepted d ?_ rfl
    rcases custody with e | e | e | e <;>
      simp [firstFail, State.supplyHigh, State.jammed, State.noMedium, State.leaving, high, e,
        exclusiveOther_eq_false.2 isOpen]
  · refine next_of_accepted d ?_ rfl
    rcases custody with e | e | e <;>
      simp [firstFail, State.supplyHigh, State.jammed, State.noMedium, State.ejecting, State.leaving, high, e,
        otherHolds_eq_false.2 free]
  · exact next_of_refused d (by simp [firstFail, State.supplyHigh, State.jammed, high, jam])
  · refine next_of_refused d ?_
    rcases none with e | e <;> simp [firstFail, State.supplyHigh, State.jammed, State.noMedium, high, e]
  · refine next_of_refused d ?_
    rcases leaves with e | e <;>
      simp [firstFail, State.supplyHigh, State.jammed, State.noMedium, State.leaving, high, e]
  · refine next_of_refused d ?_
    rcases custody with e | e | e | e <;>
      simp [firstFail, State.supplyHigh, State.jammed, State.noMedium, State.leaving, high, e,
        exclusiveOther_eq_true.2 closed]
  · exact next_of_refused d (by simp [firstFail, State.supplyHigh, State.jammed, high, jam])
  · refine next_of_refused d ?_
    rcases none with e | e <;> simp [firstFail, State.supplyHigh, State.jammed, State.noMedium, high, e]
  · refine next_of_refused d ?_
    rcases leaves with e | e | e <;>
      simp [firstFail, State.supplyHigh, State.jammed, State.noMedium, State.ejecting, State.leaving, high, e]
  · refine next_of_refused d ?_
    rcases custody with e | e | e <;>
      simp [firstFail, State.supplyHigh, State.jammed, State.noMedium, State.ejecting, State.leaving, high, e,
        otherHolds_eq_true.2 held]

end Sys2Proof.Machine
end


section
/-! SUPPORT. FETCH DATA, CANCEL and EJECT, and the conditions that they judge by. -/

namespace Sys2Proof.Machine

section
variable (s : State) (p q : Port) (tag : Byte)

@[simp] theorem restartLimit_entry? : (s.restartLimit p).entry? q tag = s.entry? q tag := by
  rw [State.entry?, restartLimit_ctx, State.entry?]

@[simp] theorem restartLimit_hasActiveSlot : (s.restartLimit p).hasActiveSlot q tag = s.hasActiveSlot q tag := by
  rw [State.hasActiveSlot, restartLimit_slots, State.hasActiveSlot]

@[simp] theorem restartLimit_doneSlots : (s.restartLimit p).doneSlots q tag = s.doneSlots q tag := by
  rw [State.doneSlots, restartLimit_slots, State.doneSlots]

@[simp] theorem restartLimit_bufferBytes (k : Nat) : (s.restartLimit p).bufferBytes k = s.bufferBytes k := by
  simp only [State.bufferBytes, State.ramByte, restartLimit_ram]

@[simp] theorem restartLimit_anyEntryIn (st : EntryState) : (s.restartLimit p).anyEntryIn st = s.anyEntryIn st := by
  simp only [State.anyEntryIn, State.hasEntryIn, restartLimit_ctx]

@[simp] theorem restartLimit_jammed : (s.restartLimit p).jammed = s.jammed := by
  rw [State.jammed, restartLimit_custody, State.jammed]

end

/-! ### FETCH DATA -/

theorem answerFetchData_of_none {s : State} {p : Port} {tag : Byte} (absent : s.entry? p tag = none) :
    s.answerFetchData p tag = s.respond p 0x1B tag .noSuchTag [] := by
  rw [State.answerFetchData, absent]

theorem answerFetchData_of_some {s : State} {p : Port} {tag : Byte} {e : Entry} (live : s.entry? p tag = some e) :
    s.answerFetchData p tag = if e.op == .read && e.unfinished then s.respond p 0x1B tag .busy []
      else if e.holdsData then s.respondWith p 0x1B tag (e.buffers.flatMap s.bufferBytes) (.fetchData tag)
      else s.respond p 0x1B tag .noSuchTag [] := by
  rw [State.answerFetchData, live]

/-- Settles O31. -/
theorem fetchDataByEntry : Obligations.FetchDataByEntry := by
  intro s p b d
  refine ⟨fun absent => ?_, fun e live => ⟨fun read state => ?_, fun read state done unfetched => ?_, fun other => ?_⟩⟩
  · exact next_of_accepted d rfl (answerFetchData_of_none (by rwa [restartLimit_entry?]))
  all_goals
    refine next_of_accepted d rfl ((answerFetchData_of_some (by rwa [restartLimit_entry?])).trans ?_)
  · rcases state with e' | e' | e' <;> simp [Entry.unfinished, read, e']
  · have bytes : (s.restartLimit p).bufferBytes = s.bufferBytes := funext (restartLimit_bufferBytes s p)
    rcases state with e' | e' <;> simp [Entry.unfinished, Entry.holdsData, read, e', done, unfetched, bytes]
  · rcases other with write | ⟨e' | e', undone | fetched⟩ <;> simp [Entry.unfinished, Entry.holdsData, *]

/-! ### CANCEL -/

theorem heldBy_iff (x : Slot) (p : Port) (tag : Byte) :
    x.heldBy p tag = true ↔ x.owner = some (.port p) ∧ x.tag = some tag := by simp [Slot.heldBy]

theorem removeEntry_of_some {s : State} {p : Port} {tag : Byte} {e : Entry} (live : s.entry? p tag = some e) :
    s.removeEntry p tag =
      (s.updCtx p fun c => { c with queue := c.queue.filter fun e => !(e.tag == tag) }).assignBuffers e.buffers none := by
  rw [State.removeEntry, live]
  rfl

theorem removeEntry_of_none {s : State} {p : Port} {tag : Byte} (absent : s.entry? p tag = none) :
    s.removeEntry p tag = s := by rw [State.removeEntry, absent]

theorem cancelEntry_of_some {s : State} {p : Port} {tag : Byte} {e : Entry} (live : s.entry? p tag = some e) :
    s.cancelEntry p tag = if e.discard || !(e.state == .inSession) then s
      else if s.hasActiveSlot p tag then
        (s.emptyWaitingSlots p tag).updEntry p tag fun e => { e with cancelling := true }
      else ((s.emptySlots p tag).completeEntry p tag (.cancelled (s.doneSlots p tag))).closeJudgement := by
  rw [State.cancelEntry, live]

theorem cancelEntry_of_none {s : State} {p : Port} {tag : Byte} (absent : s.entry? p tag = none) :
    s.cancelEntry p tag = s := by rw [State.cancelEntry, absent]

theorem answerCancel_of_some {s : State} {p : Port} {tag : Byte} {e : Entry} (live : s.entry? p tag = some e) :
    s.answerCancel p tag = match e.state with
      | .receiving => s.respond p 0x1C tag .noSuchTag []
      | .ready => (s.removeEntry p tag).respond p 0x1C tag .done []
      | .inSession => if e.discard then s.respond p 0x1C tag .noSuchTag []
        else (s.cancelEntry p tag).respond p 0x1C tag .taken []
      | .completeUnnoticed => s.respond p 0x1C tag .tooLate []
      | .noticed => s.respond p 0x1C tag .tooLate [] := by
  rw [State.answerCancel, live] <;> rfl

/-- CANCEL is answered as the entry's judgement has it. -/
theorem exec_cancel {s t : State} {p : Port} {b : Block} (d : s.delivers p 0x1C b = true) (high : s.supply.state = .high)
    (answer : (s.restartLimit p).answerCancel p b.tag = t) : exec (.cancel p b) s = .next t.finish :=
  next_of_accepted d (by simp [firstFail, State.supplyHigh, high]) (congrArg State.finish answer)

/-- Settles O32. -/
theorem cancelByEntry : Obligations.CancelByEntry := by
  refine ⟨fun s p b d high => ⟨fun absent => ?_, fun e live => ?_⟩, fun s p tag => ?_, fun s pick => rfl⟩
  · refine exec_cancel d high ?_
    rw [State.answerCancel, restartLimit_entry?, absent]
  · have found : (s.restartLimit p).entry? p b.tag = some e := by rwa [restartLimit_entry?]
    have answers := answerCancel_of_some found
    refine ⟨fun receiving => ?_, fun ready => ?_, fun serving discard => ?_, fun serving kept active => ?_,
      fun serving kept idle => ?_, fun complete => ?_⟩
    · exact exec_cancel d high (by rw [answers, receiving])
    · exact exec_cancel d high (by rw [answers, ready, removeEntry_of_some found])
    · exact exec_cancel d high (by rw [answers, serving]; simp [discard])
    · refine exec_cancel d high ?_
      rw [answers, serving, cancelEntry_of_some found]
      simp [kept, serving, active]
    · refine exec_cancel d high ?_
      rw [answers, serving, cancelEntry_of_some found]
      simp [kept, serving, idle]
    · rcases complete with complete | complete <;> exact exec_cancel d high (by rw [answers, complete])
  · refine ⟨?_, ?_, ?_, ?_, ?_, fun absent => ⟨removeEntry_of_none absent, cancelEntry_of_none absent⟩,
      fun e live => ⟨removeEntry_of_some live, fun other => ?_, fun kept serving => ?_⟩⟩
    · simp [State.hasActiveSlot, heldBy_iff]
    · simp [State.hasOpenSlot, heldBy_iff, Slot.nonFinal, or_assoc]
    · rw [State.doneSlots, List.countP_eq_length_filter]
      congr 2
      funext x
      simp [Slot.heldBy, Bool.decide_and, beq_eq_decide]
    · simp only [State.emptySlots, State.mapSlots, heldBy_iff]
    · simp only [State.emptyWaitingSlots, State.mapSlots, Bool.and_eq_true, heldBy_iff, Bool.or_eq_true, beq_iff_eq]
    · rw [cancelEntry_of_some live]
      rcases other with discard | idle <;> simp [*]
    · rw [cancelEntry_of_some live]
      simp [kept, serving]

/-! ### EJECT -/

theorem anyEntryIn_iff (s : State) (st : EntryState) :
    s.anyEntryIn st = true ↔ ∃ p, ∃ e ∈ (s.ctx p).queue, e.state = st := by
  simp only [State.anyEntryIn, State.hasEntryIn, Bool.or_eq_true, List.any_eq_true, beq_iff_eq]
  exact ⟨fun h => h.elim (fun h => ⟨.a, h⟩) fun h => ⟨.b, h⟩, fun ⟨p, h⟩ => by cases p <;> simp_all⟩

theorem maintRunning_iff (s : State) (p : Port) :
    s.maintRunning p = true ↔ ∃ m, (s.ctx p).maint = some m ∧ m.outcome = none := by
  unfold State.maintRunning
  cases (s.ctx p).maint <;> simp

theorem anyMaintRunning_iff (s : State) :
    s.anyMaintRunning = true ↔ ∃ p m, (s.ctx p).maint = some m ∧ m.outcome = none := by
  simp only [State.anyMaintRunning, Bool.or_eq_true, maintRunning_iff]
  exact ⟨fun h => h.elim (fun h => ⟨.a, h⟩) fun h => ⟨.b, h⟩, fun ⟨p, h⟩ => by cases p <;> simp_all⟩

theorem ejectBusy_iff (s : State) : s.ejectBusy = true ↔
    (∃ p, ∃ e ∈ (s.ctx p).queue, e.state = .ready ∨ e.state = .inSession) ∨ s.session ≠ none ∨
      ∃ p m, (s.ctx p).maint = some m ∧ m.outcome = none := by
  simp only [State.ejectBusy, Bool.or_eq_true, anyEntryIn_iff, anyMaintRunning_iff, Option.isSome_iff_ne_none, or_assoc]
  rw [← or_assoc]
  refine or_congr_left ?_
  simp only [and_or_left, exists_or]

/-- EJECT is refused by the first check that fails. -/
theorem eject_refused {s : State} {p : Port} {b : Block} {o : Outcome} (d : s.delivers p 0x20 b = true)
    (fails : firstFail (s.ejectChecks p b) = some o) :
    exec (.eject p b) s = .next ((s.restartLimit p).respond p 0x20 0 o []) := next_of_refused d fails

theorem eject_accepted {s t : State} {p : Port} {b : Block} (d : s.delivers p 0x20 b = true)
    (passes : firstFail (s.ejectChecks p b) = none) (result : (s.restartLimit p).acceptEject p b = t) :
    exec (.eject p b) s = .next ((t.respond p 0x20 0 .taken [b.b2]).finish) := by
  have mode : byte b.mode = b.b2 := (BitVec.ofNat_toNat 8 b.b2).trans (BitVec.setWidth_eq _)
  refine next_of_accepted d passes ?_
  rw [result, mode]

/-- Settles O33. -/
theorem ejectByModeAndCustody : Obligations.EjectByModeAndCustody := by
  refine ⟨fun s p b d high mode => ⟨fun jam => ?_, fun custody => ⟨fun held => ?_, fun free locked => ?_,
      fun free unlocked => ⟨fun now busy => ?_, fun now idle => ?_, fun after => ?_⟩⟩⟩,
    fun s p b d => ⟨fun other other' => ?_, fun mode high => ⟨fun none => ?_, fun leaves => ?_⟩⟩,
    fun s => ⟨anyEntryIn_iff s, ejectBusy_iff s⟩⟩
  · refine eject_accepted d ?_ ?_
    · rcases mode with m | m <;> simp [State.ejectChecks, firstFail, State.supplyHigh, high, State.jammed, jam, m]
    · simp [State.acceptEject, State.jammed, jam, State.newAttempt]
  · refine eject_refused d ?_
    rcases mode with m | m <;> rcases custody with e | e <;>
      simp [State.ejectChecks, firstFail, State.supplyHigh, high, State.jammed, e, m, State.noMountedMedium,
        State.noMedium, State.ejecting, State.leaving, otherHolds_eq_true.2 held]
  · refine eject_refused d ?_
    rcases mode with m | m <;> rcases custody with e | e <;>
      simp [State.ejectChecks, firstFail, State.supplyHigh, high, State.jammed, e, m, State.noMountedMedium,
        State.noMedium, State.ejecting, State.leaving, otherHolds_eq_false.2 free, locked]
  · refine eject_refused d ?_
    rcases custody with e | e <;>
      simp [State.ejectChecks, firstFail, State.supplyHigh, high, State.jammed, e, now, State.noMountedMedium,
        State.noMedium, State.ejecting, State.leaving, otherHolds_eq_false.2 free, unlocked, busy]
  · refine eject_accepted d ?_ ?_
    · rcases custody with e | e <;>
        simp [State.ejectChecks, firstFail, State.supplyHigh, high, State.jammed, e, now, State.noMountedMedium,
          State.noMedium, State.ejecting, State.leaving, otherHolds_eq_false.2 free, unlocked, idle]
    · rcases custody with e | e <;> simp [State.acceptEject, State.jammed, e, now, State.enterUnmounting] <;> rfl
  · refine eject_accepted d ?_ ?_
    · rcases custody with e | e <;>
        simp [State.ejectChecks, firstFail, State.supplyHigh, high, State.jammed, e, after, State.noMountedMedium,
          State.noMedium, State.ejecting, State.leaving, otherHolds_eq_false.2 free, unlocked]
    · have ready : ∀ f, (((s.restartLimit p).updCtx p fun c => { c with lockHeld := false }).updCustody f).anyEntryIn
          .ready = s.anyEntryIn .ready := by
        intro f
        rw [← restartLimit_anyEntryIn s p]
        cases p <;> rfl
      have notJammed : s.jammed = false := by rcases custody with e | e <;> simp [State.jammed, e]
      rw [State.acceptEject, restartLimit_jammed, notJammed, if_neg Bool.false_ne_true, if_neg (by simp [after]),
        State.enterEjectPending, ready]
  · exact eject_refused d (by simp [State.ejectChecks, firstFail, other, other'])
  · refine eject_refused d ?_
    rcases mode with m | m <;> rcases none with e | e | e <;>
      simp [State.ejectChecks, firstFail, State.supplyHigh, high, State.jammed, e, m, State.noMountedMedium,
        State.noMedium]
  · refine eject_refused d ?_
    rcases mode with m | m <;> rcases leaves with e | e | e <;>
      simp [State.ejectChecks, firstFail, State.supplyHigh, high, State.jammed, e, m, State.noMountedMedium,
        State.noMedium, State.ejecting, State.leaving]

end Sys2Proof.Machine
end

section
/-! SUPPORT. Transfers and maintenance: their checks, the buffers that are taken, and what an acceptance leaves. -/

namespace Sys2Proof.Machine

/-! ### The refusals of a transfer (R58, R159) -/

/-- Settles O30: one check after another. -/
theorem transferRefusalsInOrder : Obligations.TransferRefusalsInOrder := by
  intro s p b op c code named d refused
  have refuse (o : Outcome) (fails : firstFail (s.transferChecks p op b) = some o) : refused o := by
    rcases named with ⟨rfl, rfl, rfl⟩ | ⟨rfl, rfl, rfl⟩ | ⟨rfl, rfl, rfl⟩ <;> exact next_of_refused d fails
  refine ⟨fun bad => refuse _ ?_, fun fields => ⟨fun ⟨e, live, tag⟩ => refuse _ ?_, fun fresh =>
    ⟨fun low => refuse _ ?_, fun high => ?_⟩⟩⟩
  · simp [State.transferChecks, firstFail, transferBad_eq_true.2 bad]
  · have live : (s.entry? p b.tag).isSome = true := by
      rw [← Bool.not_eq_false, entry?_isSome_eq_false]
      exact fun none => none e live tag
    simp [State.transferChecks, firstFail, transferBad_eq_false.2 fields, live]
  · simp [State.transferChecks, firstFail, transferBad_eq_false.2 fields, entry?_isSome_eq_false.2 fresh,
      State.supplyHigh, low]
  · have early : firstFail (s.transferChecks p op b) = firstFail ((s.transferChecks p op b).drop 3) := by
      simp [State.transferChecks, firstFail, transferBad_eq_false.2 fields, entry?_isSome_eq_false.2 fresh,
        State.supplyHigh, high]
    refine ⟨fun jam => refuse _ (early.trans ?_), fun none => refuse _ (early.trans ?_),
      fun leaves stale => refuse _ (early.trans ?_), fun leaves known => refuse _ (early.trans ?_),
      fun mounted stale => refuse _ (early.trans ?_), fun ⟨mounted, known⟩ => ?_⟩
    · simp [State.transferChecks, firstFail, State.jammed, jam]
    · rcases none with e | e | e <;>
        simp [State.transferChecks, firstFail, State.jammed, State.noMountedMedium, State.noMedium, e]
    · rcases leaves with e | e | e <;> simp [State.transferChecks, firstFail, State.jammed, State.noMountedMedium,
        State.noMedium, State.staleGeneration, e, stale]
    · rcases leaves with e | e | e <;> simp [State.transferChecks, firstFail, State.jammed, State.noMountedMedium,
        State.noMedium, State.staleGeneration, State.ejecting, State.leaving, e, known]
    · rcases mounted with e | e <;> simp [State.transferChecks, firstFail, State.jammed, State.noMountedMedium,
        State.noMedium, State.staleGeneration, e, stale]
    · have late : firstFail (s.transferChecks p op b) = firstFail ((s.transferChecks p op b).drop 7) := by
        rw [early]
        rcases mounted with e | e <;> simp [State.transferChecks, firstFail, State.jammed, State.noMountedMedium,
          State.noMedium, State.staleGeneration, State.ejecting, State.leaving, e, known]
      refine ⟨fun reads held => refuse _ (late.trans ?_), fun writes held => refuse _ (late.trans ?_),
        fun writes free sampled => refuse _ (late.trans ?_), fun open_ => ?_⟩
      · simp [State.transferChecks, firstFail, reads, exclusiveOther_eq_true.2 held]
      · simp [State.transferChecks, firstFail, writes, otherHolds_eq_true.2 held]
      · simp [State.transferChecks, firstFail, writes, otherHolds_eq_false.2 free, State.writeProtected, sampled]
      · have last : firstFail (s.transferChecks p op b) = firstFail ((s.transferChecks p op b).drop 9) := by
          rw [late]
          rcases open_ with ⟨reads, free⟩ | ⟨writes, free, writable⟩
          · simp [State.transferChecks, firstFail, reads, exclusiveOther_eq_false.2 free]
          · simp [State.transferChecks, firstFail, writes, otherHolds_eq_false.2 free, State.writeProtected, writable]
        refine ⟨fun full => refuse _ (last.trans ?_), fun room data lacks => refuse _ (last.trans ?_)⟩
        · simp [State.transferChecks, firstFail, full]
        · simp [State.transferChecks, firstFail, Nat.not_le.2 room, data, State.lacksBuffers, lacks]

/-! ### The acceptance of a transfer (R58, R59) -/

theorem length_filter_getD {α : Type} (l : List α) (d : α) (q : α → Bool) :
    ((List.range l.length).filter fun i => q (l.getD i d)).length = (l.filter q).length := by
  have values : (List.range l.length).map (fun i => l.getD i d) = l := by
    refine List.ext_getElem (by simp) fun i _ low => ?_
    simp [low]
  conv_rhs => rw [← values]
  rw [List.filter_map, List.length_map]
  rfl

theorem length_takeFree {s : State} (whole : s.pool.length = 16) (n : Nat) :
    (s.takeFree n).length = min n s.freeBuffers := by
  rw [State.takeFree, List.length_take, State.freeBuffers, ← length_filter_getD s.pool (some .a), whole]

theorem takeFree_nodup (s : State) (n : Nat) : (s.takeFree n).Nodup :=
  (List.nodup_range.filter _).sublist (List.take_sublist _ _)

theorem free_of_mem_takeFree {s : State} {n i : Nat} (h : i ∈ s.takeFree n) :
    i < 16 ∧ s.pool.getD i (some .a) = none := by
  obtain ⟨low, free⟩ := List.mem_filter.1 (List.mem_of_mem_take h)
  exact ⟨List.mem_range.1 low, beq_iff_eq.1 free⟩

theorem length_foldl_set {α : Type} (l : List Nat) (h : α) (pool : List α) :
    (l.foldl (fun pool i => pool.set i h) pool).length = pool.length := by
  induction l generalizing pool with
  | nil => rfl
  | cons k l ih => rw [List.foldl_cons, ih, List.length_set]

theorem getElem?_foldl_set {α : Type} (l : List Nat) (h : α) (pool : List α) {i : Nat} (low : i < pool.length) :
    (l.foldl (fun pool i => pool.set i h) pool)[i]? = if i ∈ l then some h else pool[i]? := by
  induction l generalizing pool with
  | nil => rfl
  | cons k l ih =>
    rw [List.foldl_cons, ih _ (by rwa [List.length_set])]
    by_cases same : i = k
    · subst same
      simp [low]
    · simp [same, List.getElem?_set_ne (Ne.symm same)]

/-- The entry that an acceptance puts at the tail, its buffers given. -/
def acceptedEntry (s : State) (op : XferOp) (b : Block) (bufs : List Nat) (st : EntryState) : Entry :=
  ⟨b.tag, op, b.track, b.head, if b.b5 = 0xFF then .earliest else .absolute b.b5.toNat, b.count,
    if b.b7 = 0xFF then s.params.defaultRetry else b.b7.toNat, bufs, s.custody.generation, st, none, none, false, false,
    none, none, none, false⟩

theorem newEntry_eq {s : State} {b : Block} (fields : TransferFields b) (op : XferOp) :
    s.newEntry op b = acceptedEntry s op b (if op = .verify then [] else s.takeFree b.count)
      (if op = .write then .receiving else .ready) := by
  obtain ⟨-, -, first, -, -, retry⟩ := fields
  have first : (firstSector b).getD .earliest = if b.b5 = 0xFF then .earliest else .absolute b.b5.toNat := by
    unfold firstSector
    split_ifs with all few
    · rfl
    · rfl
    · exact absurd first (not_or_intro all few)
  have retry : (retryLimit b s.params.defaultRetry).getD 0 =
      if b.b7 = 0xFF then s.params.defaultRetry else b.b7.toNat := by
    unfold retryLimit
    split_ifs with all few
    · rfl
    · rfl
    · exact absurd retry (not_or_intro all few)
  rw [State.newEntry, first, retry]
  rfl

/-- An acceptance adds its entry, gives it its buffers and clears the standby flag. -/
theorem acceptTransfer_restartLimit {s : State} {p : Port} {b : Block} (fields : TransferFields b) (op : XferOp) :
    let u := s.restartLimit p
    let bufs := if op = .verify then [] else s.takeFree b.count
    let e := acceptedEntry s op b bufs (if op = .write then .receiving else .ready)
    u.acceptTransfer p op b = { u.updCtx p fun c => { c with queue := c.queue ++ [e] } with
      pool := bufs.foldl (fun pool i => pool.set i (some p)) s.pool
      spindle := { u.spindle with standbyFlag := false } } := by
  have free : (s.restartLimit p).takeFree b.count = s.takeFree b.count := by
    rw [State.takeFree, restartLimit_pool, State.takeFree]
  intro u bufs e
  have entry : u.newEntry op b = e := by
    rw [newEntry_eq fields]
    simp only [acceptedEntry, u, e, bufs, restartLimit_params, restartLimit_custody, free]
  rw [← restartLimit_pool s p]
  simp only [State.acceptTransfer, entry]
  cases p <;> rfl

/-- What a transfer is accepted by: every check passes. -/
theorem transferChecks_pass {s : State} {p : Port} {b : Block} {op : XferOp} (fields : TransferFields b)
    (fresh : ∀ e ∈ (s.ctx p).queue, e.tag ≠ b.tag) (high : s.supply.state = .high) (medium : s.MediumKnownTo p)
    (room : (s.ctx p).queue.length < 8)
    (free : (if op = .write then s.otherHolds p else s.holdsIn p.other .exclusive) = false)
    (writable : op = .write → s.custody.protect ≠ some .isProtected)
    (buffers : op ≠ .verify → b.count ≤ s.freeBuffers ∧ s.heldBuffers p + b.count ≤ 12) :
    firstFail (s.transferChecks p op b) = none := by
  obtain ⟨custody, known⟩ := medium
  have sampled : (op == .write && s.writeProtected) = false := by
    cases op <;> simp [State.writeProtected] at writable ⊢
    exact writable
  have holds : (!(op == .verify) && s.lacksBuffers p b.count) = false := by
    cases op <;> simp [State.lacksBuffers] at buffers ⊢ <;> exact buffers
  rcases custody with e | e <;>
    simp only [State.transferChecks, firstFail, transferBad_eq_false.2 fields, entry?_isSome_eq_false.2 fresh, free,
      sampled, holds, State.supplyHigh, high, State.jammed, State.noMountedMedium, State.noMedium, State.ejecting,
      State.leaving, State.staleGeneration, e, known, Nat.not_le.2 room, beq_self_eq_true, Bool.not_true] <;> rfl

/-- Settles O29. -/
theorem transferAccepted : Obligations.TransferAccepted := by
  rintro s p b fields fresh high medium room ⟨-, whole⟩
  have passes {op : XferOp} := transferChecks_pass (op := op) fields fresh high medium room
  refine ⟨fun d open_ => ?_, fun few held => ⟨s.takeFree b.count,
    (s.takeFree b.count).foldl (fun pool i => pool.set i (some p)) s.pool, ?_, takeFree_nodup s _,
    length_foldl_set _ _ _, fun i => free_of_mem_takeFree, fun i low => getElem?_foldl_set _ _ _ low, fun d open_ => ?_,
    fun d free writable => ?_⟩⟩
  · refine next_of_accepted d (passes (exclusiveOther_eq_false.2 open_) (by simp) (by simp)) ?_
    rw [State.entryReady, acceptTransfer_restartLimit fields]
    rfl
  · rw [length_takeFree whole, Nat.min_eq_left few]
  · refine next_of_accepted d (passes (exclusiveOther_eq_false.2 open_) (by simp) fun _ => ⟨few, held⟩) ?_
    rw [State.entryReady, acceptTransfer_restartLimit fields]
    rfl
  · refine next_of_accepted d (passes (otherHolds_eq_false.2 free) (fun _ => writable) fun _ => ⟨few, held⟩) ?_
    rw [acceptTransfer_restartLimit fields]
    rfl

/-! ### Maintenance and SET PARAMETERS (R129, R130, R136, R139) -/

theorem lowestFree_eq {r : MediaRecord} {k : Nat} {e : SpareEntry} (at_ : r.spares[k]? = some e)
    (free : e.state = .free)
    (below : ∀ j f, j < k → r.spares[j]? = some f → f.state ≠ .free) : lowestFree r = some k := by
  obtain ⟨low, rfl⟩ := List.getElem?_eq_some_iff.1 at_
  refine List.findIdx?_eq_some_iff_getElem.2 ⟨low, by simp [free], fun j hj => ?_⟩
  simpa using below j _ hj (List.getElem?_eq_getElem (hj.trans low))

theorem lowestFree_eq_none {r : MediaRecord} : lowestFree r = none ↔ ∀ e ∈ r.spares, e.state ≠ .free := by
  simp [lowestFree]

theorem mapSpareRecord_spare {r : MediaRecord} {k track j : Nat} {f : SpareEntry} (at_ : r.spares[j]? = some f) :
    (mapSpareRecord r k track).spares[j]? = some (if j = k then ⟨.mapped, track⟩
      else if f.state = .mapped ∧ f.track = track then ⟨.retired, f.track⟩ else f) := by
  have low := (List.getElem?_eq_some_iff.1 at_).1
  by_cases same : j = k
  · subst same
    simp [mapSpareRecord, low]
  · simp [mapSpareRecord, List.getElem?_set_ne (Ne.symm same), at_, same]

section
variable {s : State} {p : Port} {bad : Bool}

/-- The shared checks pass for the exclusive holder, with a writable cartridge ready. -/
theorem maintChecks_pass (field : bad = false) (high : s.supply.state = .high) (medium : s.MediumKnownTo p)
    (free : s.FreeFor p) (holder : s.holdsIn p .exclusive = true) (writable : s.custody.protect ≠ some .isProtected)
    (rest : List (Bool × Outcome)) : firstFail (s.maintChecks p bad ++ rest) = firstFail rest := by
  obtain ⟨custody, known⟩ := medium
  have sampled : s.writeProtected = false := by simpa [State.writeProtected] using writable
  rcases custody with e | e <;>
    simp only [State.maintChecks, List.cons_append, List.nil_append, firstFail, field, State.supplyHigh, high,
      State.jammed, State.noMountedMedium, State.noMedium, State.ejecting, State.leaving, State.staleGeneration, e,
      known, otherHolds_eq_false.2 free, holder, sampled, beq_self_eq_true, Bool.not_true] <;> rfl

theorem acceptMaint_restartLimit (k : MaintKind) (tag : Byte) (spare : Nat) :
    let starting : StartingCustody := if s.custody.state = .blank then .blank else .mounted
    (s.restartLimit p).acceptMaint p k tag spare = ((s.restartLimit p).updCtx p fun c =>
      { c with maint := some ⟨tag, k, none, false, starting, spare, 0, 0⟩ }).spinRequest := by
  simp only [State.acceptMaint, restartLimit_custody]

/-- The checks that follow the shared ones. -/
def State.lateMaintChecks (s : State) (p : Port) (code : Byte) : List (Bool × Outcome) :=
  if code = 0x2A then [(s.custody.state == .blank, .blankMedium), (s.maintBusy p, .busy), (s.noSpare, .noSpare)]
  else [(s.maintBusy p, .busy)]

end

theorem maintBusy_iff (s : State) (p : Port) : s.maintBusy p = true ↔
    (∃ e ∈ (s.ctx p).queue, e.state = .ready ∨ e.state = .inSession) ∨ s.session ≠ none ∨ (s.ctx p).maint ≠ none ∨
      ∃ q m, (s.ctx q).maint = some m ∧ m.outcome = none := by
  simp only [State.maintBusy, State.hasEntryIn, Bool.or_eq_true, List.any_eq_true, beq_iff_eq, anyMaintRunning_iff,
    Option.isSome_iff_ne_none, and_or_left, exists_or]
  rw [or_assoc, or_assoc]
  exact or_congr_right (or_congr_right or_comm)

/-- Settles O34. -/
theorem maintenanceAndSetParameters : Obligations.MaintenanceAndSetParameters := by
  refine ⟨fun s p b high medium free holder writable idle => ⟨fun d => ?_, fun d track head => ?_,
      fun d track mounted r k e copy at_ isFree below => ⟨?_, rfl, fun j f => mapSpareRecord_spare⟩⟩,
    fun s p b d high free => ⟨fun holder => ?_, fun other => ?_⟩, fun s p b c code bad named d => ?_,
    fun s p b d high held => ?_, fun s p => ⟨holdsIn_eq_true, maintBusy_iff s p⟩⟩
  · refine next_of_accepted d ?_ (by rw [acceptMaint_restartLimit])
    rw [maintChecks_pass rfl high medium free holder writable, idle]
    rfl
  · refine next_of_accepted d ?_ (by rw [acceptMaint_restartLimit])
    rw [maintChecks_pass (by simp [track, head]) high medium free holder writable, idle]
    rfl
  · have lowest := lowestFree_eq at_ isFree below
    refine next_of_accepted d ?_ ?_
    · rw [maintChecks_pass (by simp [track]) high medium free holder writable, idle]
      simp [firstFail, mounted, State.noSpare, copy, lowest]
    · rw [State.acceptMapSpare, restartLimit_copy, copy]
      simp only [lowest, Option.getD_some, acceptMaint_restartLimit]
      rfl
  · exact next_of_accepted d (by simp [firstFail, State.supplyHigh, high, otherHolds_eq_false.2 free, holder]) rfl
  · exact next_of_refused d (by simp [firstFail, State.supplyHigh, high, otherHolds_eq_false.2 free, other])
  · intro refused leaving
    obtain ⟨f, field, refuse⟩ : ∃ f : Bool, (f = true ↔ bad) ∧ ∀ o,
        firstFail (s.maintChecks p f ++ s.lateMaintChecks p code) = some o → refused o := by
      rcases named with ⟨rfl, rfl, rfl⟩ | ⟨rfl, rfl, rfl⟩ | ⟨rfl, rfl, rfl⟩
      · exact ⟨false, by simp, fun _ => next_of_refused d⟩
      · exact ⟨_, decide_eq_true_iff, fun _ => next_of_refused d⟩
      · exact ⟨decide (616 < b.track) || decide (1 < b.head), by simp, fun _ => next_of_refused d⟩
    refine ⟨fun wrong => refuse _ ?_, fun right low => refuse _ ?_, fun right high => ?_⟩
    · simp [State.maintChecks, firstFail, field.2 wrong]
    · simp [State.maintChecks, firstFail, mt field.1 right, State.supplyHigh, low]
    obtain rfl : f = false := by simpa using mt field.1 right
    have early : firstFail (s.maintChecks p false ++ s.lateMaintChecks p code) =
        firstFail ((s.maintChecks p false ++ s.lateMaintChecks p code).drop 2) := by
      simp [State.maintChecks, firstFail, State.supplyHigh, high]
    refine ⟨fun jam => refuse _ (early.trans ?_), fun none => refuse _ (early.trans ?_),
      fun present stale => refuse _ (early.trans ?_), fun leaves known => refuse _ (early.trans ?_), fun medium => ?_⟩
    · simp [State.maintChecks, firstFail, State.jammed, jam]
    · rcases none with e | e | e <;>
        simp [State.maintChecks, firstFail, State.jammed, State.noMountedMedium, State.noMedium, e]
    · rcases present with e | e | e | e | e <;> simp [State.maintChecks, firstFail, State.jammed, State.noMountedMedium,
        State.noMedium, State.staleGeneration, e, stale]
    · rcases leaves with e | e | e <;> simp [State.maintChecks, firstFail, State.jammed, State.noMountedMedium,
        State.noMedium, State.staleGeneration, State.ejecting, State.leaving, e, known]
    have late : firstFail (s.maintChecks p false ++ s.lateMaintChecks p code) =
        firstFail ((s.maintChecks p false ++ s.lateMaintChecks p code).drop 6) := by
      obtain ⟨mounted, known⟩ := medium
      rw [early]
      rcases mounted with e | e <;> simp [State.maintChecks, firstFail, State.jammed, State.noMountedMedium,
        State.noMedium, State.staleGeneration, State.ejecting, State.leaving, e, known]
    refine ⟨fun held => refuse _ (late.trans ?_), fun free other => refuse _ (late.trans ?_),
      fun free holder sampled => refuse _ (late.trans ?_), fun free holder writable => ?_⟩
    · simp [State.maintChecks, firstFail, otherHolds_eq_true.2 held]
    · simp [State.maintChecks, firstFail, otherHolds_eq_false.2 free, other]
    · simp [State.maintChecks, firstFail, otherHolds_eq_false.2 free, holder, State.writeProtected, sampled]
    have last := maintChecks_pass rfl high medium free holder writable (s.lateMaintChecks p code)
    refine ⟨fun spare blank => refuse _ (last.trans ?_), fun record busy => refuse _ (last.trans ?_),
      fun spare mounted idle none => refuse _ (last.trans ?_)⟩
    · simp [State.lateMaintChecks, firstFail, spare, blank]
    · by_cases spare : code = 0x2A
      · simp [State.lateMaintChecks, firstFail, spare, busy, record.resolve_left (not_not_intro spare)]
      · rw [State.lateMaintChecks, if_neg spare]
        simp [firstFail, busy]
    · have noSpare : s.noSpare = true := by
        rw [State.noSpare, Option.isNone_iff_eq_none, Option.bind_eq_none_iff]
        exact fun r held => lowestFree_eq_none.2 (none r held)
      simp [State.lateMaintChecks, firstFail, spare, mounted, idle, noSpare]
  · exact next_of_refused d (by simp [firstFail, State.supplyHigh, high, otherHolds_eq_true.2 held])

end Sys2Proof.Machine
end


section
/-! SUPPORT. The reporting commands: the bits of a sum of powers, and the bytes of the status and notice records. -/

namespace Sys2Proof.Machine

/-- The sum of the powers of two at rising places has its bits at those places. -/
theorem testBit_sum_two_pow {l : List Nat} (rising : l.Pairwise (· < ·)) (k : Nat) :
    (l.map fun i => 2 ^ i).sum.testBit k = true ↔ k ∈ l := by
  rw [← Nat.mem_bitIndices, Nat.bitIndices_sum_map_two_pow rising.sortedLT]

theorem priority_bounds (b : NoticeBody) : 1 ≤ b.priority ∧ b.priority ≤ 8 := by
  cases b <;> simp [NoticeBody.priority]

/-- The pending kinds' byte (R166): bit `k` for the kind of priority `k + 1`. -/
theorem pendingKinds_bit {l : List Notice} (rising : (l.map fun n => n.body.priority).Pairwise (· < ·)) {k : Nat}
    (low : k < 8) : (byte (l.map fun n => 2 ^ (n.body.priority - 1)).sum).getLsbD k = true ↔
      ∃ n ∈ l, n.body.priority = k + 1 := by
  have places : (l.map fun n => n.body.priority - 1).Pairwise (· < ·) := by
    rw [List.pairwise_map] at rising ⊢
    exact rising.imp fun {m n} less => by have := priority_bounds m.body; omega
  have powers : (l.map fun n => 2 ^ (n.body.priority - 1)) = (l.map fun n => n.body.priority - 1).map fun i => 2 ^ i := by
    rw [List.map_map]
    rfl
  rw [byte, BitVec.getLsbD_ofNat, powers]
  simp only [low, decide_true, Bool.true_and, testBit_sum_two_pow places, List.mem_map]
  refine exists_congr fun n => and_congr_right fun _ => ?_
  have := priority_bounds n.body
  omega

theorem mul_bit (n : Nat) (b : Bool) : n * bit b = if b = true then n else 0 := by cases b <;> simp [bit]

theorem byte_extract (x : BitVec 16) : byte (x.toNat / 256) = x.extractLsb' 8 8 ∧ byte x.toNat = x.extractLsb' 0 8 := by
  constructor <;> apply BitVec.eq_of_toNat_eq <;> simp [byte, Nat.shiftRight_eq_div_pow]

theorem byte_extract32 (x : BitVec 32) : byte (x.toNat / 16777216) = x.extractLsb' 24 8 ∧
    byte (x.toNat / 65536) = x.extractLsb' 16 8 ∧ byte (x.toNat / 256) = x.extractLsb' 8 8 ∧
      byte x.toNat = x.extractLsb' 0 8 := by
  refine ⟨?_, ?_, ?_, ?_⟩ <;> apply BitVec.eq_of_toNat_eq <;> simp [byte, Nat.shiftRight_eq_div_pow]

theorem conditions_code (c : Conditions) : c.code =
    (if c.speedLost then 1 else 0) + (if c.spindleFault then 2 else 0) + (if c.positionUncertain then 4 else 0) +
      (if c.recalFailed then 8 else 0) + (if c.supplyLow then 16 else 0) + (if c.ejectJammed then 32 else 0) := by
  simp only [Conditions.code, mul_bit]
  rfl

/-- Settles O24. -/
theorem reportingCommands : Obligations.ReportingCommands := by
  refine ⟨fun s p b => ⟨fun d r => ⟨next_of_accepted d rfl rfl, rfl⟩, fun d => ⟨fun empty => ?_, fun n rest head => ?_⟩,
    fun d high e1 e2 e3 => ⟨fun r copy => ?_, fun blank => ?_⟩, fun d high custody => ?_, fun d high => ?_⟩,
    fun v p => ?_, fun n => ?_⟩
  · refine next_of_accepted d rfl ?_
    rw [State.answerNotice, restartLimit_ctx, empty]
    simp only [restartLimit_time]
    rfl
  · refine next_of_accepted d rfl ?_
    rw [State.answerNotice, restartLimit_ctx, head]
    simp only [restartLimit_time]
    rfl
  · refine next_of_accepted d ?_ (by rw [restartLimit_copy, copy]; rfl)
    simp [firstFail, State.supplyHigh, high, State.noMountedMedium, State.noMedium, e1, e2, e3, copy]
  · refine next_of_refused d ?_
    simp [firstFail, State.supplyHigh, high, State.noMountedMedium, State.noMedium, e1, e2, e3, blank]
  · refine next_of_refused d ?_
    rcases custody with e | e | e <;>
      simp [firstFail, State.supplyHigh, high, State.noMountedMedium, State.noMedium, e]
  · refine next_of_accepted d (by simp [firstFail, State.supplyHigh, high]) (by rw [restartLimit_params])
  · intro c u flag hi period counter track rising
    refine ⟨_, fun k low => pendingKinds_bit rising low, ?_⟩
    simp only [State.statusRecord, List.cons_append, List.nil_append, word16, signed16, (byte_extract _).1,
      (byte_extract _).2, mul_bit, conditions_code, List.cons.injEq, and_true]
    refine ⟨?supply, ?custody, rfl, ?sample, ?spindle, trivial, rfl, rfl, (byte_extract _).1.symm, trivial, ?pos, rfl,
      rfl, rfl, rfl, rfl, rfl, rfl, ?owned, ?limit, ?refusal, rfl, rfl, rfl⟩
    case supply => cases v.supply.state <;> rfl
    case limit => trivial
    case custody => rcases v.custody.state with _ | _ <;> rcases u.step with _ | _ | _ <;> rfl
    case sample =>
      rcases v.custody.protect with _ | _ | _ <;> rcases v.custody.lastMount with _ | _ | _ | _ | _ | _ <;> rfl
    case spindle => rcases v.spindle.state with _ | _ <;> rcases v.spindle.lastFault with _ | _ | _ <;> rfl
    case pos =>
      simp only [beq_eq_decide, Session.suspended]
      cases v.pos.state <;> rfl
    case owned =>
      simp only [beq_eq_decide, maintCode, Option.isNone_iff_eq_none]
      rfl
    case refusal =>
      change _ = byte (match (v.ctx p).lastRefusal with | none => 0 | some o => o.code)
      cases (v.ctx p).lastRefusal <;> rfl
  · obtain ⟨t1, t2, t3, t4⟩ := byte_extract32 n.time
    intro sector fields
    have body : n.body.recordCode = (fields n.body).1 ∧ n.body.firstDetail = (fields n.body).2.1 ∧
        n.body.secondDetail = (fields n.body).2.2 := by
      cases n.body with
      | mediumRejected r => cases r <;> exact ⟨rfl, rfl, rfl⟩
      | mediumRemoved c => cases c <;> exact ⟨rfl, rfl, rfl⟩
      | ejectAsked w => cases w <;> exact ⟨rfl, rfl, rfl⟩
      | reservationTaken m => cases m <;> exact ⟨rfl, rfl, rfl⟩
      | spindleFault c => cases c <;> exact ⟨rfl, rfl, rfl⟩
      | maintenanceDone k o => rcases k with _ | _ | _ <;> rcases o with d | c <;> exact ⟨rfl, rfl, rfl⟩
      | transferDone o f =>
        rcases o with _ | ⟨_ | k, c⟩ | m
        · exact ⟨rfl, rfl, rfl⟩
        · cases f <;> exact ⟨rfl, rfl, rfl⟩
        · cases f <;> exact ⟨rfl, rfl, rfl⟩
        · by_cases few : m ≤ 7 <;>
            simp [fields, NoticeBody.recordCode, NoticeBody.priority, NoticeBody.firstDetail, NoticeBody.secondDetail,
              transferUpper, few, sector]
      | _ => exact ⟨rfl, rfl, rfl⟩
    obtain ⟨b1, b2, b3⟩ := body
    rw [Notice.bytes, t1, t2, t3, t4, b1, b2, b3]

end Sys2Proof.Machine
end

section
/-! SUPPORT. What the memories read back, and the bytes, timers and ends of the link. -/

namespace Sys2Proof.Machine

/-! ### Memory -/

theorem ramByte_setRamByte {s : State} (canonical : Memory.wf s.ram = true) (a b : Nat) (v : Byte) :
    (s.setRamByte a v).ramByte b = if b = a then v else s.ramByte b := by
  split_ifs with same
  · subst same
    exact sparseGet_sparseSet_same _ _ _ _ none canonical
  · exact sparseGet_sparseSet_ne _ _ _ _ _ same none canonical

theorem sectorKey_inj {t h k h' k' : Nat} (hk : k < 20) (hk' : k' < 20) :
    sectorKey t h' k' = sectorKey t h k ↔ h' = h ∧ k' = k := by
  unfold sectorKey
  omega

theorem sectorKey_of_track_ne {t u h k h' k' : Nat} (hh : h < 2) (hk : k < 20) (hh' : h' < 2) (hk' : k' < 20)
    (other : u ≠ t) : sectorKey u h' k' ≠ sectorKey t h k := by
  unfold sectorKey
  omega

/-- Settles O35. -/
theorem storedBytesReadBack : Obligations.StoredBytesReadBack := by
  rintro s ⟨ram, medium⟩
  refine ⟨fun a b v => ramByte_setRamByte ram a b v, fun n off l => ⟨⟨storeBytes_wf _ _ _ ram, medium⟩,
      fun i v stored => ?_, fun a outside => storeBytes_outside _ _ _ _ ram outside,
      fun whole => State.bufferBytes_storeBuffer s n l ram whole⟩,
    fun h k h' k' i hh hk hh' hk' => ⟨⟨ram, sparseSet_wf _ _ _ _ medium⟩, ?_, fun c other => ?_⟩⟩
  · obtain ⟨low, rfl⟩ := List.getElem?_eq_some_iff.1 stored
    exact storeBytes_inside _ _ _ _ ram low
  · split_ifs with same
    · obtain ⟨rfl, rfl⟩ := same
      exact sparseGet_sparseSet_same _ _ _ _ none medium
    · exact sparseGet_sparseSet_ne _ _ _ _ _ (mt (sectorKey_inj hk hk').1 same) none medium
  · exact sparseGet_sparseSet_ne _ _ _ _ _ (sectorKey_of_track_ne hh hk hh' hk' other) none medium

/-! ### Bytes on the link -/

theorem updLink_congr {s : State} {p : Port} {f g : Link → Link} (h : f (s.link p) = g (s.link p)) :
    s.updLink p f = s.updLink p g := State.updCtx_congr (by rw [show (s.ctx p).link = s.link p from rfl, h])

theorem sending_iff {s : State} {p : Port} : s.sending p = true ↔ s.Sends p := by
  simp [State.sending, State.Sends]

/-- Settles O36. -/
theorem linkBytesAreTaken : Obligations.LinkBytesAreTaken := by
  refine ⟨fun s p b present => ?_, fun s p b absent => ⟨?_, ?_⟩⟩
  · have taken : exec (.inboundByteTaken p b) s = .next (s.takeByte p b) := congrArg Host.Outcome.next (if_pos present)
    refine ⟨fun idle => taken.trans (congrArg _ ?_), fun block few => taken.trans (congrArg _ ?_),
      fun data few => ⟨fun tag e work live => taken.trans (congrArg _ ?_), fun work => taken.trans (congrArg _ ?_)⟩,
      fun sends => ⟨taken.trans (congrArg _ ?_), fun few => congrArg Host.Outcome.next (if_pos ?_)⟩⟩
    · simp only [State.takeByte, idle]
      rfl
    · simp only [State.takeByte, block, if_pos few]
      rfl
    · simp only [State.takeByte, data, if_pos few, work, live]
      exact updLink_congr rfl
    · have stored : s.takeByte p b = (s.updLink p fun l => { l with received := l.received ++ [b] }).updLink p fun l =>
          { l with counter := l.counter + 1, timer := some ⟨s.time, linkTime⟩ } := by
        rcases work with ⟨tag, work⟩ | work <;> simp only [State.takeByte, data, if_pos few, work]
      rw [stored]
      exact State.updCtx_updCtx ..
    · rcases sends with sends | sends <;> simp only [State.takeByte, sends]
    · simp [sending_iff.2 ⟨present, sends⟩, few]
  · exact congrArg Host.Outcome.next (if_neg (by simp [absent]))
  · exact congrArg Host.Outcome.next (if_neg (by simp [State.sending, absent]))

/-! ### Timers of the link -/

theorem toIdle_eq (l : Link) (now : Time) : l.toIdle now = match l.strobe with
    | none => ⟨.idle, 0, 0, none, [], [], [], .plain, none⟩
    | some b => ⟨.receivingBlock, 1, 8, some ⟨now, 100000⟩, [b], [], [], .plain, none⟩ := by
  unfold Link.toIdle
  cases l.strobe <;> rfl

theorem expired_some (x : Timer) (now : Time) : expired (some x) now = decide (x.length ≤ (now - x.start).toNat) := rfl

/-- Settles O37. -/
theorem blockAndStallTimersAbandon : Obligations.BlockAndStallTimersAbandon := by
  intro s p idle
  have toIdle : s.linkToIdle p = idle := congrArg (s.updLink p) (funext fun l => toIdle_eq l s.time)
  refine ⟨fun block x timer => congrArg Host.Outcome.next ?_, fun sends x timer => congrArg Host.Outcome.next ?_⟩
  · simp only [block, timer, expired_some, beq_self_eq_true, Bool.true_and, decide_eq_true_eq, toIdle]
  · simp only [sending_iff.2 sends, timer, expired_some, Bool.true_and, decide_eq_true_eq, toIdle]

/-- Settles O38. -/
theorem gapTimerUndoesThePhase : Obligations.GapTimerUndoesThePhase := by
  intro s p x data timer late
  have ends : exec (.dataPhaseGapTimeout p) s = .next (s.timeOutPhase p).finish :=
    congrArg Host.Outcome.next (if_pos (by rw [data, timer, expired_some, decide_eq_true late]; rfl))
  refine ⟨fun tag e work live => ?_, fun tag work => ?_, fun work => ?_⟩ <;>
    rw [ends, State.timeOutPhase, State.undoPhase, work]
  · simp only [removeEntry_of_some live]
    rfl
  · rfl
  · rfl

/-! ### The end of a response or phase -/

/-- Settles O40. -/
theorem noticeRefillOrder : Obligations.NoticeRefillOrder := by
  intro s p c filled
  have refills {d : PortContext} (h : c.refill = d) : filled d := congrArg Host.Outcome.next (congrArg (s.setCtx p) h)
  refine ⟨fun full => refills (if_pos full), fun room => ⟨fun n rest pending => refills ?_,
    fun pending held => refills ?_, fun m pending held maint => refills ?_,
    fun tag rest e pending none held live => refills ?_⟩⟩ <;>
    rw [PortContext.refill, if_neg (show ¬ noticeRoom ≤ c.notices.length from Nat.not_le.2 room), pending]
  · simp [held, oldestHeld]
  · simp only [List.contains_iff_mem, held, if_true, maint, Option.map_some, Option.toList_some, beq_eq_decide,
      decide_not]
  · have first : oldestHeld c.held = some tag := by rw [held]; rfl
    have others : (fun h => !(h == HeldMember.transfer tag)) = fun h => decide (h ≠ HeldMember.transfer tag) :=
      funext fun h => by rw [beq_eq_decide, decide_not]
    simp only [List.contains_iff_mem, none, if_false, first, live, Option.map_some, Option.toList_some, others,
      PortContext.place, pending]

@[simp] theorem refill_link (c : PortContext) : c.refill.link = c.link := by
  unfold PortContext.refill
  repeat' split
  all_goals rfl

@[simp] theorem noticeFetched_link (c : PortContext) (tag : Byte) : (c.noticeFetched tag).link = c.link := by
  unfold PortContext.noticeFetched
  repeat' split
  all_goals rfl

@[simp] theorem takeNotice_link (c : PortContext) : c.takeNotice.link = c.link := by
  unfold PortContext.takeNotice
  split
  · rfl
  · rw [refill_link]
    split
    · exact noticeFetched_link _ _
    · rfl
    · rfl

theorem exec_responseComplete {s : State} {p : Port} (sends : s.Sends p) :
    exec (.responseComplete p) s = .next (s.endOutbound p) := congrArg Host.Outcome.next (if_pos (sending_iff.2 sends))

/-- The link's part of the end, where no phase follows. -/
theorem endOutbound_of_last {s t : State} {p : Port} (ends : s.completeOutbound p = t)
    (link : t.link p = s.link p) (last : (s.link p).state = .responseOut → (s.link p).outPhase = []) :
    s.endOutbound p = t.updLink p fun _ => match (s.link p).strobe with
      | none => ⟨.idle, 0, 0, none, [], [], [], .plain, none⟩
      | some b => ⟨.receivingBlock, 1, 8, some ⟨s.time, 100000⟩, [b], [], [], .plain, none⟩ := by
  rw [State.endOutbound, ends]
  refine updLink_congr ?_
  rw [link, Link.afterOutbound, if_neg fun h => h.2 (last h.1), toIdle_eq]

/-- Settles O39. -/
theorem outboundEndCompletes : Obligations.OutboundEndCompletes := by
  refine ⟨fun s p present => ?_, fun s p => ⟨fun none => ?_, fun n more head => ?_⟩⟩
  · intro rest
    refine ⟨fun response phase work => ?_, fun response none work => ?_, fun data work => ?_,
      fun response none work c named => ?_, fun data tag e work live c named => ?_⟩
    · refine (exec_responseComplete ⟨present, .inl response⟩).trans (congrArg _ ?_)
      have nothing : s.completeOutbound p = s := by
        rw [State.completeOutbound, response]
        split <;> simp_all
      rw [State.endOutbound, nothing]
      exact updLink_congr (by rw [Link.afterOutbound, if_pos ⟨response, phase⟩]; rfl)
    · refine (exec_responseComplete ⟨present, .inl response⟩).trans (congrArg _ ?_)
      exact endOutbound_of_last (by rw [State.completeOutbound, response, work]) rfl fun _ => none
    · refine (exec_responseComplete ⟨present, .inr data⟩).trans (congrArg _ ?_)
      exact endOutbound_of_last (by rw [State.completeOutbound, data, work]) rfl (by simp [data])
    · have sends : s.sending p = true := sending_iff.2 ⟨present, .inl response⟩
      have result : exec c s = .next (s.endOutbound p) := by
        simp only [List.mem_cons, List.not_mem_nil, or_false] at named
        rcases named with rfl | rfl
        · exact congrArg Host.Outcome.next (if_pos sends)
        · exact congrArg Host.Outcome.next (if_pos (by simp [sends, response, work]))
      rw [result]
      refine congrArg _ (endOutbound_of_last (by rw [State.completeOutbound, response, work]) ?_ fun _ => none)
      rw [updCtx_link, takeNotice_link]
      rfl
    · have sends : s.sending p = true := sending_iff.2 ⟨present, .inr data⟩
      have result : exec c s = .next (s.endOutbound p) := by
        simp only [List.mem_cons, List.not_mem_nil, or_false] at named
        rcases named with rfl | rfl
        · exact congrArg Host.Outcome.next (if_pos sends)
        · exact congrArg Host.Outcome.next (if_pos (by simp [sends, data, work, LinkWork.fetches]))
      have completes : s.completeOutbound p = s.fetchDataDone p tag := by rw [State.completeOutbound, data, work]
      rw [result]
      refine ⟨fun noticed => congrArg _ (endOutbound_of_last ?_ ?_ (by simp [data])),
        fun unnoticed => congrArg _ (endOutbound_of_last ?_ ?_ (by simp [data]))⟩
      · rw [completes, State.fetchDataDone, live]
        simp only [noticed, if_true, removeEntry_of_some live]
      · cases p <;> rfl
      · rw [completes, State.fetchDataDone, live]
        simp only [unnoticed, if_false]
      · cases p <;> rfl
  · rw [PortContext.takeNotice, none]
  · intro c told
    have refilled (d : PortContext) : exec (.noticeRefill p) (s.setCtx p d) = .next (s.setCtx p d.refill) := by
      cases p <;> rfl
    refine (refilled told).trans (congrArg _ (congrArg (s.setCtx p) ?_))
    rw [PortContext.takeNotice, head]
    refine congrArg PortContext.refill ?_
    simp only [told, c]
    cases n.body with
    | transferDone o f =>
      cases n.tag with
      | none => rfl
      | some tag =>
        simp only [PortContext.noticeFetched]
        cases (s.ctx p).queue.find? fun e => e.tag == tag with
        | none => rfl
        | some e => simp only [Bool.and_eq_true, beq_iff_eq, Bool.not_eq_true', and_assoc]
    | _ => cases n.tag <;> rfl

end Sys2Proof.Machine
end


section
/-! SUPPORT. The ends of the inbound phases and of a maintenance operation. -/

namespace Sys2Proof.Machine

theorem phaseEndsWith_iff {s : State} {p : Port} {bytes : List Byte} :
    s.phaseEndsWith p bytes = true ↔ s.EndsPhase p bytes := by
  simp [State.phaseEndsWith, State.EndsPhase, and_assoc]

/-! ### Bytes stored through an entry's buffers (R61) -/

/-- Where byte `i` of a WRITE's phase goes. -/
def phasePlace (bufs : List Nat) (i : Nat) : Nat := 512 * bufs.getD (i / 512) recordBuffer + i % 512

theorem storePhase_eq (s : State) (bufs : List Nat) (i : Nat) (l : List Byte) :
    s.storePhase bufs i l = { s with ram := (s.storePhase bufs i l).ram } := by
  induction l generalizing s i with
  | nil => rfl
  | cons b rest ih =>
    rw [State.storePhase, ih]
    rfl

theorem setRamByte_wf {s : State} (canonical : Memory.wf s.ram = true) (a : Nat) (v : Byte) :
    Memory.wf (s.setRamByte a v).ram = true := sparseSet_wf _ _ _ _ canonical

theorem storePhase_wf {s : State} (canonical : Memory.wf s.ram = true) (bufs : List Nat) (i : Nat) (l : List Byte) :
    Memory.wf (s.storePhase bufs i l).ram = true := by
  induction l generalizing s i with
  | nil => exact canonical
  | cons b rest ih => exact ih (setRamByte_wf canonical _ _) _

/-- A byte at none of the places reads as before. -/
theorem storePhase_outside {s : State} (canonical : Memory.wf s.ram = true) (bufs : List Nat) (i : Nat) (l : List Byte)
    {a : Nat} (outside : ∀ k, k < l.length → a ≠ phasePlace bufs (i + k)) :
    (s.storePhase bufs i l).ramByte a = s.ramByte a := by
  induction l generalizing s i with
  | nil => rfl
  | cons b rest ih =>
    have later (k : Nat) (low : k < rest.length) : a ≠ phasePlace bufs (i + 1 + k) := by
      rw [Nat.add_right_comm]
      exact outside (k + 1) (Nat.succ_lt_succ low)
    exact (ih (setRamByte_wf canonical _ _) _ later).trans
      ((ramByte_setRamByte canonical _ _ _).trans (if_neg (outside 0 (Nat.succ_pos _))))

/-- Where the places are apart, each reads the byte stored there. -/
theorem storePhase_inside {s : State} (canonical : Memory.wf s.ram = true) (bufs : List Nat) (i : Nat) (l : List Byte)
    (apart : ∀ j k, j < k → k < l.length → phasePlace bufs (i + j) ≠ phasePlace bufs (i + k)) {j : Nat} {x : Byte}
    (stored : l[j]? = some x) : (s.storePhase bufs i l).ramByte (phasePlace bufs (i + j)) = x := by
  induction l generalizing s i j with
  | nil => simp at stored
  | cons b rest ih =>
    have canonical' : Memory.wf (s.setRamByte (phasePlace bufs i) b).ram = true := setRamByte_wf canonical _ _
    cases j with
    | zero =>
      obtain rfl : b = x := by simpa using stored
      have later (k : Nat) (low : k < rest.length) : phasePlace bufs (i + 0) ≠ phasePlace bufs (i + 1 + k) := by
        rw [Nat.add_right_comm]
        exact apart 0 (k + 1) (Nat.succ_pos k) (Nat.succ_lt_succ low)
      exact (storePhase_outside canonical' _ _ _ later).trans ((ramByte_setRamByte canonical _ _ _).trans (if_pos rfl))
    | succ j =>
      have later (j k : Nat) (less : j < k) (low : k < rest.length) :
          phasePlace bufs (i + 1 + j) ≠ phasePlace bufs (i + 1 + k) := by
        rw [Nat.add_right_comm, Nat.add_right_comm i 1]
        exact apart (j + 1) (k + 1) (Nat.succ_lt_succ less) (Nat.succ_lt_succ low)
      rw [show i + (j + 1) = i + 1 + j from (Nat.add_right_comm i j 1).symm ▸ rfl]
      exact ih canonical' _ later stored

/-- Different bytes of a phase go to different places, as the buffers of an entry are different. -/
theorem phasePlace_ne {bufs : List Nat} (apart : bufs.Nodup) {i j : Nat} (less : i < j) (low : j < 512 * bufs.length) :
    phasePlace bufs i ≠ phasePlace bufs j := by
  have lowi : i / 512 < bufs.length := by omega
  have lowj : j / 512 < bufs.length := by omega
  have place {k : Nat} (h : k / 512 < bufs.length) : phasePlace bufs k = 512 * bufs[k / 512] + k % 512 := by
    rw [phasePlace, List.getD_eq_getElem _ _ h]
  intro same
  rw [place lowi, place lowj] at same
  have buffer : bufs[i / 512] = bufs[j / 512] := by omega
  have index := (apart.getElem_inj_iff).1 buffer
  omega

/-- Settles O42. -/
theorem writePhaseEnds : Obligations.WritePhaseEnds := by
  rintro s p bytes tag e one many ends work live ⟨canonical, -⟩
  refine ⟨(s.storePhase e.buffers (s.link p).counter bytes).ram, ?_⟩
  intro n v
  have stored : s.storePhase e.buffers n bytes = v := storePhase_eq _ _ _ _
  have result (t : State) (judged : v.judgeReceived p tag e = t) :
      exec (.writeDataPhaseComplete p bytes) s = .next ((t.respond p 0x19 tag .taken []).finish) := by
    refine (if_pos (by simp [Instr.wf, one, many])).trans (congrArg Host.Outcome.next ?_)
    rw [work]
    simp only [phaseEndsWith_iff.2 ends, if_true, State.endWritePhase, live]
    rw [stored, judged]
  refine ⟨fun a outside => ?_, fun apart room i x at_ => ?_, fun ready same => result _ ?_, fun gone => result _ ?_⟩
  · exact storePhase_outside canonical _ _ _ outside
  · refine storePhase_inside canonical _ _ _ (fun j k less low => phasePlace_ne apart (by omega) (by omega)) at_
  · refine if_pos ?_
    rcases ready with ready | ready <;> simp [State.mediumReady, v, ready, same]
  · refine if_neg ?_
    rcases gone with ⟨mounted, blank⟩ | other <;> simp [State.mediumReady, v, *]

/-! ### The record and the table (R133, R134, R139) -/

theorem builtRecord_of_copy {r : MediaRecord} (bytes : List Byte) : builtRecord (some r) .mounted bytes =
    { r with serial := (bytes.drop 16).take 4, label := bytes.take 16, writeCount := (r.writeCount + 1) % 65536 } := rfl

theorem builtRecord_fresh {copy : Option MediaRecord} {starting : StartingCustody} (bytes : List Byte)
    (fresh : starting = .blank ∨ copy = none) : builtRecord copy starting bytes =
      ⟨(bytes.drop 16).take 4, bytes.take 16, 1, List.replicate 16 ⟨.free, 0⟩⟩ := by
  rcases fresh with rfl | rfl
  · rfl
  · cases starting <;> rfl

/-! ### The end of a maintenance operation (R129, R132, R135, R136) -/

theorem commitRecord_blank {s : State} (blank : s.custody.state = .blank) (r : MediaRecord) :
    let raised : Nat := if s.custody.generation = 255 then 1 else s.custody.generation + 1
    s.commitRecord .blank r = (({ s with
      copy := some r
      custody := { s.custody with state := .mounted, generation := raised } } : State).postBoth
        .mediumMounted).cancelAll fun e => decide (e.generation ≠ raised) := by
  intro raised
  have others : (fun e : Entry => !(e.generation == raised)) = fun e => decide (e.generation ≠ raised) :=
    funext fun e => by rw [beq_eq_decide, decide_not]
  unfold State.commitRecord
  rw [blank, ← others]
  rfl

theorem commitRecord_not_blank {s : State} (other : s.custody.state ≠ .blank) (r : MediaRecord) :
    s.commitRecord .blank r = s := by
  unfold State.commitRecord
  split <;> simp_all

/-- What the end commits: nothing where the operation failed. -/
def State.committed (s : State) (m : Maint) : DriveOutcome → State
  | .done => s.commit m
  | .failed _ => s

theorem maintenanceEnd_of_some {s : State} {p : Port} {m : Maint} (o : DriveOutcome)
    (maint : (s.ctx p).maint = some m) :
    s.maintenanceEnd p o =
      let t := s.committed m o
      if m.discard then t.updCtx p fun c => { c with maint := none }
      else t.updCtx p fun c => ({ c with maint := some { m with
        outcome := some (t.maintOutcome m o), endTime := t.time
        endGeneration := t.custody.generation } } : PortContext).placeMaint := by
  unfold State.maintenanceEnd
  rw [maint]
  rfl

/-- Settles O43. -/
theorem recordAndParameterPhasesEnd : Obligations.RecordAndParameterPhasesEnd := by
  refine ⟨fun s p bytes tag m one few ends work maint => ?_, fun s p bytes one few ends work => ?_,
    fun s p m o maint => ?_⟩
  · intro all label serial ended
    have result (r : MediaRecord) (built : builtRecord s.copy m.starting all = r) : ended r := by
      refine (if_pos (by simp [Instr.wf, one, few])).trans (congrArg Host.Outcome.next ?_)
      rw [work]
      simp only [phaseEndsWith_iff.2 ends, if_true, State.endRecordPhase, maint]
      rw [built]
      rfl
    refine ⟨fun r mounted copy => result _ ?_, fun fresh => result _ (builtRecord_fresh all fresh)⟩
    rw [mounted, copy]
    exact builtRecord_of_copy all
  · refine (if_pos (by simp [Instr.wf, one, few])).trans (congrArg Host.Outcome.next ?_)
    simp [phaseEndsWith_iff.2 ends, work]
  · intro written raised t outcome
    have commits : s.committed m o = t := by
      simp only [t]
      rcases o with _ | c
      · rw [State.committed, State.commit]
        rcases m.kind with _ | _ | _
        · rfl
        · rcases m.starting with _ | _
          · rfl
          · split_ifs with blank
            · exact commitRecord_blank blank _
            · exact commitRecord_not_blank blank _
        · rfl
      · rfl
    have outcomes : t.maintOutcome m o = outcome := by
      simp only [outcome]
      rcases o with _ | c
      · rw [State.maintOutcome]
        rcases m.kind with _ | _ | _ <;> rfl
      · rfl
    rw [maintenanceEnd_of_some o maint, commits]
    refine ⟨fun discard => if_pos discard, fun kept => ?_⟩
    simp only [kept, outcomes]
    rfl

end Sys2Proof.Machine
end

section
/-! SUPPORT. What follows a change of state: the idle judgement, and the gate's drop. -/

namespace Sys2Proof.Machine

theorem idleConditions_iff (s : State) : s.idleConditions = true ↔
    s.spindle.state = .atSpeed ∧ s.spindle.faultPending = false ∧ s.spindle.standbyStop = false ∧ s.session = none ∧
      (∀ p, ∀ e ∈ (s.ctx p).queue, e.state ≠ .ready ∧ e.state ≠ .inSession) ∧
      (∀ p m, (s.ctx p).maint = some m → m.outcome ≠ none) ∧
      (s.pos.state = .onTrack ∨ s.pos.state = .unloaded) ∧ s.custody.state ≠ .mounting := by
  have queues : (!(s.anyEntryIn .ready || s.anyEntryIn .inSession)) = true ↔
      ∀ p, ∀ e ∈ (s.ctx p).queue, e.state ≠ .ready ∧ e.state ≠ .inSession := by
    rw [Bool.not_eq_true', ← Bool.not_eq_true, Bool.or_eq_true, anyEntryIn_iff, anyEntryIn_iff]
    push Not
    exact ⟨fun h p e live => ⟨h.1 p e live, h.2 p e live⟩, fun h => ⟨fun p e live => (h p e live).1,
      fun p e live => (h p e live).2⟩⟩
  have maint : (!s.anyMaintRunning) = true ↔ ∀ p m, (s.ctx p).maint = some m → m.outcome ≠ none := by
    rw [Bool.not_eq_true', ← Bool.not_eq_true, anyMaintRunning_iff]
    push Not
    rfl
  simp only [State.idleConditions, Bool.and_eq_true, queues, maint, and_assoc]
  simp only [beq_iff_eq, Bool.not_eq_true', Option.isNone_iff_eq_none, Bool.or_eq_true, beq_eq_false_iff_ne, ne_eq]

/-- The idle judgement (R29), case by case. -/
theorem judgeIdle_eq (s : State) :
    let stopping : State := { s with
      spindle := { s.spindle with standbyStop := true, idleCount := 0, idleTimer := none } }
    s.judgeIdle =
      if s.idleConditions = false then { s with spindle := { s.spindle with idleCount := 0, idleTimer := none } }
      else if s.spindle.standbyFlag = true ∨ s.params.standbyLimit ≠ 0 ∧ s.spindle.idleTimer ≠ none ∧
          10 * s.params.standbyLimit ≤ s.spindle.idleCount then
        if s.pos.state = .onTrack then stopping.beginRetract else stopping
      else if s.spindle.idleTimer = none then { s with
        spindle := { s.spindle with idleCount := 0, idleTimer := some ⟨s.time, 1000000⟩ } }
      else s := by
  intro stopping
  have standby : s.takeStandby = if s.pos.state = .onTrack then stopping.beginRetract else stopping := by
    simp only [State.takeStandby, beq_iff_eq]
    rfl
  cases idle : s.idleConditions with
  | false => rw [State.judgeIdle, idle]; rfl
  | true =>
    rw [State.judgeIdle, idle, if_pos rfl, if_neg (show ¬ true = false from Bool.noConfusion)]
    by_cases timer : s.spindle.idleTimer = none
    · have wanted : (s.updSpindle fun x => { x with idleCount := 0, idleTimer := s.startTimer 1000000 }).standbyWanted =
          s.spindle.standbyFlag := by
        have none : (s.params.standbyLimit != 0 && decide (10 * s.params.standbyLimit ≤ 0)) = false := by
          cases h : s.params.standbyLimit <;> simp
        exact (congrArg (s.spindle.standbyFlag || ·) none).trans (Bool.or_false _)
      simp only [timer, Option.isSome_none, wanted, ne_eq, not_true_eq_false, false_and, and_false, or_false, if_true,
        Bool.false_eq_true, if_false]
      refine ite_congr rfl (fun _ => ?_) fun _ => rfl
      rw [← standby]
      rfl
    · have started : s.spindle.idleTimer.isSome = true := Option.isSome_iff_ne_none.2 timer
      have wanted : s.standbyWanted = true ↔ s.spindle.standbyFlag = true ∨ s.params.standbyLimit ≠ 0 ∧
          s.spindle.idleTimer ≠ none ∧ 10 * s.params.standbyLimit ≤ s.spindle.idleCount := by
        simp [State.standbyWanted, timer]
      rw [if_pos started]
      simp only [wanted, standby, if_neg timer]

theorem gateLaw_iff (s : State) : s.gateLaw = true ↔ s.spindle.state = .atSpeed ∧ s.pos.state = .onTrack ∧
    s.pos.confidence = .known ∧ s.supply.state = .high ∧ s.custody.protect = some .writable := by
  simp [State.gateLaw, State.supplyHigh, and_assoc]

theorem opKind_writes (k : OpKind) : k.writes = true ↔ k = .write ∨ k = .recordWrite := by
  cases k <;> simp [OpKind.writes]

theorem writeServed_iff (s : State) : s.writeServed = true ↔
    s.seq.pass ≠ none ∨ ∃ o, s.seq.op = some o ∧ (o.kind = .write ∨ o.kind = .recordWrite) := by
  simp only [State.writeServed, Bool.or_eq_true, Option.isSome_iff_ne_none]
  refine or_congr_right ?_
  cases s.seq.op <;> simp [opKind_writes]

/-- The gate's part (R82), of the state that the idle judgement leaves. -/
theorem dropGateByLaw_eq (s : State) :
    s.dropGateByLaw = if s.gateLaw = true ∧ s.writeServed = true then s else s.dropGate := by
  simp only [State.dropGateByLaw, Bool.and_eq_true]

section
variable {s off : State} {head n : Nat} (goes : off = { s with seq := { s.seq with gate := false } })
  (place : head = s.sessionHead) (number : n = s.freeCount) (on : s.seq.gate = true)
include goes place number on

/-- A gate that goes off during an operation (R5). -/
theorem dropGate_of_op {o : Operation} (serves : s.seq.op = some o) :
    s.dropGate = if (o.kind = .write ∨ o.kind = .recordWrite) ∧ o.recorded = false then
      { off.setImage head o.sector { off.image head o.sector with data := .torn n } with freeCount := n + 1 }
    else off := by
  have tears : (o.kind.writes && !o.recorded) = true ↔
      (o.kind = .write ∨ o.kind = .recordWrite) ∧ o.recorded = false := by
    rw [Bool.and_eq_true, opKind_writes, Bool.not_eq_true']
  subst goes place number
  simp only [← tears, State.dropGate, on, Bool.not_true, Bool.false_eq_true, if_false, serves]
  rfl

/-- A gate that goes off with no operation served (R9). -/
theorem dropGate_of_pass {f : FormatPass} {k : Nat} (serves : s.seq.op = none) (pass : s.seq.pass = some f)
    (current : s.seq.current = some k) : s.dropGate =
      { off.setImage head k ⟨.cut n, .torn n, ⟨.cut n, .cut n, .cut n⟩⟩ with freeCount := n + 1 } := by
  subst goes place number
  simp only [State.dropGate, on, Bool.not_true, Bool.false_eq_true, if_false, serves, pass, current]
  rfl

end

theorem dropGate_of_nothing {s : State} (on : s.seq.gate = true) (serves : s.seq.op = none)
    (nothing : s.seq.pass = none ∨ s.seq.current = none) :
    s.dropGate = { s with seq := { s.seq with gate := false } } := by
  rcases nothing with none | none <;> cases pass : s.seq.pass <;> simp_all [State.dropGate]

/-- The parts that the idle judgement leaves. -/
theorem judgeIdle_leaves (s : State) : s.judgeIdle.seq = s.seq ∧ s.judgeIdle.session = s.session ∧
    s.judgeIdle.freeCount = s.freeCount ∧ s.judgeIdle.supply = s.supply ∧ s.judgeIdle.custody = s.custody ∧
      s.judgeIdle.medium = s.medium := by
  rw [judgeIdle_frame]
  exact ⟨rfl, rfl, rfl, rfl, rfl, rfl⟩

/-- The parts that the gate's drop leaves. -/
theorem finish_leaves (s : State) : s.finish.spindle = s.judgeIdle.spindle ∧ s.finish.pos = s.judgeIdle.pos ∧
    s.finish.carriage = s.judgeIdle.carriage := by
  rw [State.finish, dropGateByLaw_frame]
  exact ⟨rfl, rfl, rfl⟩

theorem finish_of_gate_off {s : State} (off : s.seq.gate = false) : s.finish = s.judgeIdle := by
  rw [State.finish, dropGateByLaw_eq]
  split_ifs
  · rfl
  · exact dropGate_of_off ((judgeIdle_leaves s).1 ▸ off)

/-- A move does not read the spindle. -/
theorem startMove_of_spindle (s : State) (x : Spindle) (f : Profile) :
    ({ s with spindle := x } : State).startMove f = { s.startMove f with spindle := x } := by
  unfold State.startMove
  split_ifs <;> rfl

theorem beginRetract_of_spindle (s : State) (x : Spindle) :
    ({ s with spindle := x } : State).beginRetract = { s.beginRetract with spindle := x } := by
  unfold State.beginRetract
  exact startMove_of_spindle (s.updPos fun x => { x with
    state := .retracting, plan := [], heldRetract := false, loadTimer := none, settleTimer := none }) x _

/-- Settles O19. -/
theorem idleJudgementAndGateDrop : Obligations.IdleJudgementAndGateDrop := by
  refine ⟨fun s => ?_, fun s => ?_⟩
  · obtain ⟨spindle, pos, carriage⟩ := finish_leaves s
    obtain ⟨seq, session, free, supply, custody, medium⟩ := judgeIdle_leaves s
    have judged := judgeIdle_eq s
    refine ⟨?_, idleConditions_iff s, fun idle => ?_, fun idle timer flag => ?_, fun idle timer flag short => ?_,
      fun idle wanted => ?_, fun off => ?_, fun on => ?_⟩
    · conv_lhs => rw [finish_frame]
      conv_rhs => rw [finish_frame]
    · rw [spindle, pos, carriage, judged, if_pos idle]
      exact ⟨rfl, rfl, rfl⟩
    · rw [spindle, pos, carriage, judged, if_neg (by simp [idle]), if_neg (by simp [timer, flag]), if_pos timer]
      exact ⟨rfl, rfl, rfl⟩
    · have unwanted : ¬ (s.spindle.standbyFlag = true ∨ s.params.standbyLimit ≠ 0 ∧ s.spindle.idleTimer ≠ none ∧
          10 * s.params.standbyLimit ≤ s.spindle.idleCount) := by
        rw [flag]
        rintro (set | ⟨limit, -, long⟩)
        · cases set
        · exact short.elim limit fun short => absurd long (Nat.not_le.2 short)
      rw [spindle, pos, carriage, judged, if_neg (by simp [idle]), if_neg unwanted, if_neg timer]
      exact ⟨rfl, rfl, rfl⟩
    · rw [spindle, pos, judged, if_neg (by simp [idle]), if_pos wanted]
      split_ifs with heads
      · exact ⟨by rw [beginRetract_frame], by rw [beginRetract_of_spindle s _]⟩
      · exact ⟨rfl, rfl⟩
    · rw [finish_of_gate_off off]
      exact ⟨seq, medium, free⟩
    · have kept : s.judgeIdle.gateLaw = true ∧ s.judgeIdle.writeServed = true := by
        by_contra lawless
        rw [State.finish, dropGateByLaw_eq, if_neg lawless, dropGate_seq] at on
        cases on
      have same : s.finish = s.judgeIdle := by rw [State.finish, dropGateByLaw_eq, if_pos kept]
      rw [same]
      exact ⟨kept.1, kept.2, seq, medium⟩
  · intro stopping judged lawful off head n
    have same : s.judgeIdle = judged := judgeIdle_eq s
    have result : s.finish = judged.dropGateByLaw := congrArg State.dropGateByLaw same
    obtain ⟨seq, session, free, supply, custody, -⟩ : judged.seq = s.seq ∧ judged.session = s.session ∧
        judged.freeCount = s.freeCount ∧ judged.supply = s.supply ∧ judged.custody = s.custody ∧
          judged.medium = s.medium := same ▸ judgeIdle_leaves s
    have law : judged.gateLaw = true ∧ judged.writeServed = true ↔ lawful := by
      rw [gateLaw_iff, writeServed_iff, seq, supply, custody]
      simp only [lawful, and_assoc]
    have off_eq : off = { judged with seq := { judged.seq with gate := false } } :=
      congrArg (fun q : Sequencer => ({ judged with seq := { q with gate := false } } : State)) seq.symm
    have head_eq : head = judged.sessionHead := by simp only [State.sessionHead, session, head] <;> rfl
    have n_eq : n = judged.freeCount := free.symm
    rw [result, dropGateByLaw_eq]
    simp only [law]
    clear_value judged
    refine ⟨fun keeps => ?_, fun on lawless => ?_⟩
    · split_ifs with h
      · rfl
      · exact dropGate_of_off (seq ▸ keeps.resolve_right h)
    · rw [if_neg lawless]
      rw [← seq] at on ⊢
      refine ⟨fun o serves => ?_, fun serves => ⟨fun f k pass current => ?_, fun nothing => ?_⟩⟩
      · have drops := dropGate_of_op off_eq head_eq n_eq on serves
        exact ⟨fun h => drops.trans (if_pos h), fun h => drops.trans (if_neg h)⟩
      · exact dropGate_of_pass off_eq head_eq n_eq on serves pass current
      · exact (dropGate_of_nothing on serves nothing).trans off_eq.symm

end Sys2Proof.Machine
end


section
/-! SUPPORT. The spindle's stops and restarts, and the positioner's requests. -/

namespace Sys2Proof.Machine

section
variable {c : Prop} [Decidable c] {a b t : State}

/-- A step whose condition holds. -/
theorem next_of_due (due : c) (result : a = t) :
    (.next (if c then a else b) : Host.Outcome State Fault Refusal) = .next t := by rw [if_pos due, result]

end

theorem expired_of {t : Option Timer} {x : Timer} {now : Time} (timer : t = some x)
    (late : x.length ≤ (now - x.start).toNat) : expired t now = true := by
  rw [timer, expired_some, decide_eq_true late]

theorem waitsForSpeed_eq (s : State) : s.waitsForSpeed = decide (s.custody.state = .mounting ∧
    s.custody.step = some .spinning ∧ s.custody.supplyHold = false) := by
  simp [State.waitsForSpeed, Bool.decide_and, beq_eq_decide, Bool.and_assoc]

theorem mountsAt_iff (s : State) (k : MountStep) : s.mountsAt k = true ↔
    s.custody.state = .mounting ∧ s.custody.step = some k ∧ s.custody.supplyHold = false := by
  simp [State.mountsAt, and_assoc]

/-- Entering BRAKING (R18, R23, R25, R33): only a waiting mount with the supply high asks for speed again. -/
theorem enterBraking_eq (s : State) : s.enterBraking = { s with
    spindle := { s.spindle with
      firstIndexTimer := none, lockTimer := none, absenceTimer := none, regainTimer := none
      quietTimer := some ⟨s.time, 400000⟩, duty := 0, state := .braking, faultPending := false, standbyStop := false
      restartFlag := s.spindle.restartFlag || (s.waitsForSpeed && decide (s.supply.state = .high)) }
    seq := { s.seq with current := none } } := by
  unfold State.enterBraking
  dsimp only
  split_ifs with waits
  · have waits : s.waitsForSpeed = true := waits
    by_cases high : s.supply.state = .high <;>
      simp [State.spinRequest, State.supplyHigh, high, waits, State.updSpindle, Spindle.stopTimers, State.startTimer]
  · have waits : s.waitsForSpeed = false := Bool.not_eq_true _ ▸ waits
    simp [waits, Spindle.stopTimers, State.startTimer]

/-- Settles O50. -/
theorem brakingStoppingAndIdleSeconds : Obligations.BrakingStoppingAndIdleSeconds := by
  intro s waits still braked stopped
  have wait : s.waitsForSpeed = waits := waitsForSpeed_eq s
  have brake : s.enterBraking = braked := by
    rw [enterBraking_eq, wait]
  have working : (s.anyEntryIn .ready || s.anyEntryIn .inSession) = true ↔
      ∃ p, ∃ e ∈ (s.ctx p).queue, e.state = .ready ∨ e.state = .inSession := by
    rw [Bool.or_eq_true, anyEntryIn_iff, anyEntryIn_iff]
    simp only [and_or_left, exists_or]
  have stops : s.enterStopped = if waits = true ∨ s.custody.state = .ejectPending ∧
      (s.anyEntryIn .ready || s.anyEntryIn .inSession) = true then stopped.spinRequest else stopped := by
    rw [← wait]
    simp only [State.enterStopped, Bool.or_eq_true, Bool.and_eq_true, beq_iff_eq]
    rfl
  refine ⟨fun pending heads => ?_, fun coasting parked => ?_, fun standby turns parked => ?_,
    fun braking x timer late => ⟨fun asks => ?_, fun waitless idle => ?_⟩, fun stopped flag => ?_,
    fun x timer late => ?_⟩
  · exact next_of_due (by simpa [State.faultBrakeDue, pending] using heads) (by rw [brake])
  · exact next_of_due (by simp [State.coastingEndDue, coasting, parked]) (by rw [brake])
  · refine next_of_due ?_ (by rw [brake])
    rcases turns with e | e <;> simp [State.standbyBrakeDue, State.regulated, standby, e, parked]
  · refine next_of_due (by rw [braking, expired_of timer late]; rfl) ?_
    rw [stops, if_pos (asks.imp_right fun ⟨pending, works⟩ => ⟨pending, working.2 works⟩)]
  · refine next_of_due (by rw [braking, expired_of timer late]; rfl) ?_
    rw [stops, if_neg]
    rintro (asks | ⟨pending, works⟩)
    · rw [waitless] at asks
      cases asks
    · obtain ⟨p, e, live, works⟩ := working.1 works
      exact idle.elim (fun h => h pending) fun h => works.elim (h p e live).1 (h p e live).2
  · exact next_of_due (by simp [State.restartDue, stopped, flag]) rfl
  · exact next_of_due (expired_of timer late) (by simp only [State.updSpindle, timer, Option.map_some])

/-! ### Moves, loads and requests (R39 to R52) -/

/-- A move does not read custody. -/
theorem startMove_of_custody (s : State) (u : Custody) (f : Profile) :
    ({ s with custody := u } : State).startMove f = { s.startMove f with custody := u } := by
  unfold State.startMove
  split_ifs <;> rfl

theorem startMove_eq (s : State) (f : Profile) : s.startMove f =
    if f.distance = 0 then { s with pos := { s.pos with profile := some f, stepTimer := some ⟨s.time, 0⟩ } }
    else { s with
      carriage := if f.direction = .inward then s.carriage - 1 else min (s.carriage + 1) 640
      pos := { s.pos with
        counter := if f.direction = .inward then s.pos.counter - 1 else s.pos.counter + 1
        profile := some { f with stepIndex := f.stepIndex + 1 }
        stepTimer := some ⟨s.time, f.table.getD (min 1 (min f.distance f.table.length) - 1) 0⟩ } } := by
  unfold State.startMove State.pulse
  cases f.direction <;> rfl

theorem beginRecalibration_eq (s : State) : s.beginRecalibration =
    if s.pos.confidence = .known then
      ({ s with pos := { s.pos with state := .recalibrating } } : State).startMove
        ⟨.recalSeek, .inward, s.pos.counter.toNat, 0, s.params.intervals.take s.params.entries, s.params.settle⟩
    else { s with pos := { s.pos with
      state := .recalibrating, stepTimer := some ⟨s.time, 0⟩
      profile := some ⟨.creep, .inward, 660, 0, (s.params.intervals.take s.params.entries).take 1,
        s.params.settle⟩ } } := by
  simp only [State.beginRecalibration, beq_iff_eq]
  rfl

theorem beginRetract_eq (s : State) : s.beginRetract = ({ s with pos := { s.pos with
      state := .retracting, plan := [], heldRetract := false, loadTimer := none, settleTimer := none } } :
      State).startMove
    ⟨.retract, .outward, if s.pos.confidence = .known then (640 - s.pos.counter).toNat else 660, 0,
      s.params.intervals.take s.params.entries, s.params.settle⟩ := by
  simp only [State.beginRetract, beq_iff_eq]
  rfl

/-- Custody's step, once it has seen the positioner RECALIBRATING (R99). -/
def State.custodySeen (s : State) : Custody :=
  if s.custody.state = .mounting ∧ s.custody.step = some .loading ∧ s.custody.supplyHold = false then
    { s.custody with step := some .recalibrating } else s.custody

theorem custodyRecalSeen_eq (s : State) : s.custodyRecalSeen = { s with custody := s.custodySeen } := by
  simp only [State.custodyRecalSeen, mountsAt_iff, State.custodySeen]
  split_ifs <;> rfl

theorem custodyRecalSeen_startMove (s : State) (f : Profile) :
    (s.startMove f).custodyRecalSeen = ({ s with custody := s.custodySeen } : State).startMove f := by
  have seen : (s.startMove f).custodySeen = s.custodySeen := by
    rw [startMove_frame]
    rfl
  rw [custodyRecalSeen_eq, seen, startMove_of_custody s s.custodySeen f]

/-- Settles O51. -/
theorem loadsWaitingTargetsAndRetracts : Obligations.LoadsWaitingTargetsAndRetracts := by
  refine ⟨fun s => ?_, fun s q => ?_⟩
  · intro latched seen loaded leaving away
    let unloading : State := s.updPos fun x => { x with loadTimer := none, plan := x.plan.drop 1 }
    have loads (state : s.pos.state = .loading) (x : Timer) (timer : s.pos.loadTimer = some x)
        (late : x.length ≤ (s.time - x.start).toNat) :
        exec .loadTimerExpiry s = .next (unloading.beginRecalibration.custodyRecalSeen).finish :=
      next_of_due (by rw [state, expired_of timer late]; rfl) rfl
    refine ⟨fun f => ⟨fun still => ?_, fun moves => ?_⟩, fun state x timer late => ⟨fun known => ?_, fun lost => ?_⟩,
      fun q unloaded waiting turns awake => ?_, fun state held step settle => ?_⟩
    · rw [startMove_eq, if_pos still]
    · rw [startMove_eq, if_neg moves]
    · refine (loads state x timer late).trans (congrArg (fun u => Host.Outcome.next (State.finish u)) ?_)
      have seeks := (beginRecalibration_eq unloading).trans (if_pos known)
      rw [seeks, custodyRecalSeen_startMove]
      rfl
    · refine (loads state x timer late).trans (congrArg (fun u => Host.Outcome.next (State.finish u)) ?_)
      have creeps := (beginRecalibration_eq unloading).trans (if_neg (by simp [unloading, State.updPos, lost]))
      rw [creeps, custodyRecalSeen_eq]
      rfl
    · have due : s.waitingDue = true := by
        simp [State.waitingDue, unloaded, waiting, State.spindleReady, turns, awake]
      have step : exec .waitingTargetStart s = .next (if s.waitingDue then
          ((s.updPos fun x => { x with waitingTarget := none }).beginLoad [.recalibrate, .seek q]).finish else s) := by
        change Host.Outcome.next _ = _
        rw [waiting]
      rw [step, due]
      rfl
    · have due : s.stageEndedHeld = true := by
        rcases state with e | e | e <;> simp [State.stageEndedHeld, e, held, step, settle]
      have retract : (s.updPos fun x => { x with request := none }).beginRetract = away := beginRetract_eq _
      refine next_of_due due ?_
      rw [retract]
      rcases s.pos.request with _ | _ | _ <;> rfl
  · intro latched moves asked loading seen kept parked n f turning
    have ready : s.spindleReady = true ↔ turning := by simp [State.spindleReady, turning]
    refine ⟨?_, ?_, ?_, ?_, beginRecalibration_eq s, beginRetract_eq s⟩
    · rw [State.seekRequest]
      cases s.pos.state <;> try rfl
      · by_cases turns : turning
        · rw [if_pos turns, ready.2 turns]
          rfl
        · rw [if_neg turns]
          simp only [ready.not.2 turns]
          rfl
      · simp only [beq_iff_eq]
        rfl
    · rw [State.recalibrateRequest]
      cases s.pos.state <;> try rfl
      · simp only [beq_iff_eq]
        rfl
      · simp only [State.custodyRecalSeen, mountsAt_iff]
        rfl
    · rw [State.retractRequest]
      cases s.pos.state <;> try rfl
      rcases s.pos.request with _ | _ | _ <;> rfl
    · rfl

end Sys2Proof.Machine
end

section
/-! SUPPORT. The steps of a motion, its end, and the settle. -/

namespace Sys2Proof.Machine

/-! ### One pulse, and the ends of a motion (R37, R47 to R53) -/

theorem pulse_eq (s : State) (f : Profile) (wait : Nat) : s.pulse f wait = { s with
    carriage := if f.direction = .inward then s.carriage - 1 else min (s.carriage + 1) 640
    pos := { s.pos with
      counter := if f.direction = .inward then s.pos.counter - 1 else s.pos.counter + 1
      profile := some { f with stepIndex := f.stepIndex + 1 }, stepTimer := some ⟨s.time, wait⟩ } } := by
  unfold State.pulse
  cases f.direction <;> rfl

theorem setUncertain_of_known {s : State} (known : s.pos.confidence = .known) : s.setUncertain =
    ({ s with pos := { s.pos with confidence := .uncertain } } : State).raiseFlag .positionUncertain := by
  rw [State.setUncertain, known]
  rfl

theorem setUncertain_of_uncertain {s : State} (lost : s.pos.confidence = .uncertain) : s.setUncertain = s := by
  rw [State.setUncertain, lost]
  rfl

/-- A creep after the loss of confidence (R38, R49). -/
theorem setUncertain_beginCreep (s : State) :
    let flagged : State := if s.pos.confidence = .known then s.raiseFlag .positionUncertain else s
    s.setUncertain.beginCreep = { flagged with pos := { s.pos with
      state := .recalibrating, confidence := .uncertain, stepTimer := some ⟨s.time, 0⟩
      profile := some ⟨.creep, .inward, 660, 0, (s.params.intervals.take s.params.entries).take 1,
        s.params.settle⟩ } } := by
  intro flagged
  cases confidence : s.pos.confidence with
  | known =>
    simp only [flagged, confidence, if_true, setUncertain_of_known confidence]
    rfl
  | uncertain =>
    simp only [flagged, confidence, reduceCtorEq, if_false, setUncertain_of_uncertain confidence, State.beginCreep,
      State.updPos]
    rfl

/-- The next stage, once the sensor is found (R50). -/
theorem sensorFound_eq (s : State) :
    let found : State := { s with
      recalOutstanding := false
      pos := { s.pos with counter := 0, confidence := .known, profile := none, stepTimer := none } }
    s.sensorFound = if s.pos.heldRetract = true then found else match s.pos.plan with
      | .seek q :: _ => found.beginSeek q
      | _ => { found with pos := { found.pos with
          state := .settling, settleTimer := some ⟨s.time, s.params.settle⟩ } } := by
  intro found
  cases held : s.pos.heldRetract with
  | true => exact if_pos held
  | false =>
    refine (if_neg (by simpa [State.updPos] using held)).trans ?_
    rcases plan : s.pos.plan with _ | ⟨_ | _, _⟩ <;>
      simp only [State.updPos, plan, Bool.false_eq_true, if_false, found] <;> rfl

/-- The track-0 sensor's reading (R2, R49). -/
theorem sensorActive_eq (s : State) (r : TrackZeroReading) :
    s.sensorActive r = match r with | .asCarriage => s.carriage == 0 | .level b => b := by cases r <;> rfl

section
variable {s : State} {f : Profile} {x : Timer} (runs : s.pos.profile = some f) (timer : s.pos.stepTimer = some x)
  (late : x.length ≤ (s.time - x.start).toNat)
include runs timer late

theorem exec_stepIntervalExpiry (plain : f.kind ≠ .creep) (r : TrackZeroReading) :
    exec (.stepIntervalExpiry r) s = .next (s.stepOn f r).finish := by
  change Host.Outcome.next _ = _
  rw [runs]
  exact next_of_due (by simp [plain, expired_of timer late]) rfl

theorem exec_creepIntervalExpiry (creeps : f.kind = .creep) (r : TrackZeroReading) :
    exec (.creepIntervalExpiry r) s = .next (s.creepOn f r).finish := by
  change Host.Outcome.next _ = _
  rw [runs]
  exact next_of_due (by simp [creeps, expired_of timer late]) rfl

end

/-- Settles O52. -/
theorem stepsSettlesAndArrivals : Obligations.StepsSettlesAndArrivals := by
  refine ⟨fun s r => ?_, fun s => ?_⟩
  · intro seen found arrived unloaded flagged onTrack
    have sensor : s.sensorActive r = seen := sensorActive_eq s r
    have finds : s.sensorFound = arrived := sensorFound_eq s
    refine ⟨fun f x runs timer late => ?_, fun x timer late => ?_⟩
    · intro i settled pulsed
      have steps := exec_stepIntervalExpiry runs timer late
      have creep (creeps : f.kind = .creep) := exec_creepIntervalExpiry runs timer late creeps
      have ends (plain : f.kind ≠ .creep) (last : f.distance ≤ f.stepIndex) :
          exec (.stepIntervalExpiry r) s = .next (s.motionEnd f r).finish := by
        rw [steps plain, State.stepOn, if_neg (Nat.not_lt.2 last)]
      refine ⟨fun plain more => ?_, fun last => ⟨fun kind => ?_, fun kind => ?_, fun kind => ?_, fun kind => ?_⟩,
        fun creeps => ⟨fun active => ?_, fun inactive more => ?_, fun inactive last => ?_⟩⟩
      · rw [steps plain, State.stepOn, if_pos more, pulse_eq]
        rfl
      · rw [ends (by simp [kind]) last, State.motionEnd, kind]
        rfl
      · rw [ends (by simp [kind]) last, State.motionEnd, kind]
        rfl
      · rw [ends (by simp [kind]) last, State.motionEnd, kind]
        rfl
      · rw [ends (by simp [kind]) last, State.motionEnd, kind]
        simp only [sensor, finds, setUncertain_beginCreep]
        cases seen <;> rfl
      · rw [creep creeps, State.creepOn, sensor, if_pos active, finds]
      · rw [creep creeps, State.creepOn, sensor, if_neg (by simp [inactive]), if_pos more, pulse_eq]
      · rw [creep creeps, State.creepOn, sensor, if_neg (by simp [inactive]), if_neg (Nat.not_lt.2 last)]
    · have settles : exec .settleTimerExpiry s = .next s.settleEnd.finish := next_of_due (expired_of timer late) rfl
      have result {u : State} (h : s.settleEnd = u) : exec .settleTimerExpiry s = .next u.finish := by rw [settles, h]
      refine ⟨fun retracting => result ?_, fun settling held => result ?_, fun settling free => ?_⟩
      · rw [State.settleEnd, retracting]
        rfl
      · rw [State.settleEnd, settling]
        exact if_pos held
      · have arrives : s.settleEnd = s.enterOnTrack := by
          rw [State.settleEnd, settling]
          exact if_neg (by simp [free])
        rw [settles, arrives, State.enterOnTrack]
        rcases s.pos.request with _ | _ | _ <;> rfl
  · intro away
    refine ⟨setUncertain_of_known, setUncertain_of_uncertain, ?_⟩
    unfold State.recalFailure State.answerRecalFailed
    rcases s.pos.request with _ | _ | _ <;> rfl

end Sys2Proof.Machine
end


section
/-! SUPPORT. Sector starts, the ends of windows, and the index event of a regulated spindle. -/

namespace Sys2Proof.Machine

theorem startDue_iff (s : State) (k : Nat) : s.startDue k = true ↔
    (s.spindle.state = .locking ∨ s.spindle.state = .atSpeed) ∧ s.spindle.faultPending = false ∧
      s.seq.current = some (k - 1) ∧
      ∃ a n, s.spindle.lastIndex = some a ∧ s.spindle.period = some n ∧ k * n / 20 ≤ (s.time - a).toNat := by
  have regulated : s.raisesStarts = true ↔
      (s.spindle.state = .locking ∨ s.spindle.state = .atSpeed) ∧ s.spindle.faultPending = false := by
    simp [State.raisesStarts, State.regulated]
  rw [State.startDue, Bool.and_eq_true, Bool.and_eq_true, regulated, beq_iff_eq, and_assoc, and_assoc]
  refine and_congr_right fun _ => and_congr_right fun _ => and_congr_right fun _ => ?_
  rcases s.spindle.lastIndex with _ | a <;> rcases s.spindle.period with _ | n
  · simp
  · simp
  · simp
  · refine decide_eq_true_iff.trans ⟨fun reached => ⟨a, n, rfl, rfl, reached⟩, ?_⟩
    rintro ⟨_, _, ⟨⟩, ⟨⟩, reached⟩
    exact reached

theorem serves_iff (x : Session) : x.serves = true ↔
    x.phase = .serving ∧ x.speedSuspended = false ∧ x.positionSuspended = false ∧ x.failed = false := by
  simp [Session.serves, Session.suspended, and_assoc]

section
variable {s : State} {k : Nat} {x : Session}

/-- The operation that an ARMED slot starts (R81). -/
def State.startedOp (s : State) (k : Nat) : Operation :=
  ⟨k, s.opKindOf (s.slot k), s.opBufferOf (s.slot k) k, s.time, false, false⟩

/-- The sequencer at a sector start. -/
def State.sectorTurned (s : State) (k : Nat) : State :=
  { s with seq := { s.seq with current := some k, pass := s.seq.pass.map fun _ => ⟨s.time⟩ } }

theorem sectorStart_eq : s.sectorStart k = match s.session with
    | none => s.sectorTurned k
    | some x => if !(x.phase == .serving) then s.sectorTurned k else match (s.slot k).state with
      | .deferred => (s.sectorTurned k).setSlot k { (s.slot k) with state := .armed }
      | .armed => if x.serves then
          ({ s.sectorTurned k with
            seq := { (s.sectorTurned k).seq with op := some (s.startedOp k) } } : State).setSlot k
              { (s.slot k) with state := .active }
        else s.sectorTurned k
      | _ => s.sectorTurned k := rfl

theorem sectorStart_of_not_serving (idle : s.session = none ∨ ∃ x, s.session = some x ∧ x.phase = .positioning) :
    s.sectorStart k = s.sectorTurned k := by
  rw [sectorStart_eq]
  rcases idle with none | ⟨x, open_, phase⟩
  · rw [none]
  · rw [open_]
    exact if_pos (by simp [phase])

theorem sectorStart_of_serving (open_ : s.session = some x) (phase : x.phase = .serving) :
    s.sectorStart k = match (s.slot k).state with
      | .deferred => (s.sectorTurned k).setSlot k { (s.slot k) with state := .armed }
      | .armed => if x.serves then
          ({ s.sectorTurned k with
            seq := { (s.sectorTurned k).seq with op := some (s.startedOp k) } } : State).setSlot k
              { (s.slot k) with state := .active }
        else s.sectorTurned k
      | _ => s.sectorTurned k := by
  rw [sectorStart_eq, open_]
  exact if_neg (by simp [phase])

end

/-- Settles O53. -/
theorem sectorStartsAndWindows : Obligations.SectorStartsAndWindows := by
  intro s k started
  refine ⟨fun one last => ?_, fun o runs => ?_, fun idle => ⟨fun none => ?_, fun f pass early => ?_,
    fun f x c pass late on open_ current => ?_⟩, sectorStart_of_not_serving, fun x open_ phase => ?_⟩
  · intro due
    have legal {b : State} (h : (if s.startDue k then ((s.windowEnd).sectorStart k).finish else s) = b) :
        exec (.sectorStartEvent k) s = .next b :=
      (if_pos (by simp [Instr.wf, one, last])).trans (congrArg Host.Outcome.next h)
    exact ⟨fun h => legal (if_pos ((startDue_iff s k).2 h)), fun h => legal (if_neg (mt (startDue_iff s k).1 h))⟩
  · rw [State.windowEnd, runs]
  · rw [State.windowEnd, idle, none]
  · rw [State.windowEnd, idle, pass]
    exact if_pos early
  · rw [State.windowEnd, idle, pass]
    refine (if_neg (Nat.not_lt.2 late)).trans ?_
    rw [State.recordFormatted, open_, current]
    exact if_pos on
  · have starts := sectorStart_of_serving (k := k) open_ phase
    refine ⟨fun deferred => ?_, fun armed speed position failed => ⟨s.startedOp k, rfl, rfl, rfl, rfl,
      fun p tag e owner held live => ?_, fun owner => ?_, ?_⟩, fun other idle => ?_⟩
    · rw [starts, deferred]
      rfl
    · simp only [State.startedOp, State.opKindOf, State.opBufferOf, owner, held, live]
      exact ⟨by cases e.op <;> rfl, rfl⟩
    · simp only [State.startedOp, State.opKindOf, State.opBufferOf, owner]
      exact ⟨rfl, fun r request => by rw [request]⟩
    · rw [starts, armed]
      exact if_pos ((serves_iff x).2 ⟨phase, speed, position, failed⟩)
    · rw [starts]
      cases state : (s.slot k).state with
      | deferred => exact absurd state other
      | armed =>
        refine if_neg ?_
        rw [serves_iff]
        rintro ⟨-, speed, position, failed⟩
        simp [state, speed, position, failed] at idle
      | _ => rfl

/-! ### The index event (R17, R20 to R22, R93) -/

theorem clampInt_eq {lo hi : Int} (order : lo ≤ hi) (x : Int) : clampInt x lo hi = max lo (min hi x) := by
  unfold clampInt
  split_ifs <;> omega

theorem nextDuty_eq (duty n : Nat) : nextDuty duty n =
    (max 40 (min 255 ((duty : Int) + max (-12) (min 12 (((n : Int) - 20000).tdiv 32))))).toNat := by
  rw [nextDuty, clampInt_eq (by omega), clampInt_eq (by omega), speedError]

section
variable {s : State} {a : Time} (index : s.spindle.lastIndex = some a)
include index

/-- The spindle at a regulated index event (R17, R20, R23, R30). -/
theorem regulate_eq : s.regulate = { s with spindle := { s.spindle with
    lastIndex := some s.time, period := some (s.time - a).toNat
    duty := (max 40 (min 255 ((s.spindle.duty : Int) +
      max (-12) (min 12 ((((s.time - a).toNat : Int) - 20000).tdiv 32))))).toNat
    revolutions := s.spindle.revolutions + 1
    absenceTimer := if s.spindle.faultPending then s.spindle.absenceTimer else some ⟨s.time, 40000⟩ } } := by
  rw [← nextDuty_eq]
  simp only [State.regulate, Spindle.takeIndex, State.updSpindle, index, Option.map_some, elapsed]
  rfl

end

/-- A format pass is due for a session at this index (R93). -/
def State.passDueFor (s : State) (y : Session) : Bool :=
  decide (y.owner = .drive ∧ (∃ r, s.driveReq = some r ∧ r.kind = .formatPass) ∧ y.serves = true ∧ s.seq.pass = none)

/-- The session after an index event: the count, and whether a pass is due. -/
def State.countedSession (s : State) (due : Session → Bool) : Option Session := s.session.map fun y => { y with
  revolutions := if y.phase = .serving then min (y.revolutions + 1) 3 else y.revolutions, passDue := due y }

theorem sessionIndex_eq (s : State) : s.sessionIndex = { s with session := s.countedSession s.passDueFor } := by
  have due (y : Session) : (y.owner == .drive && (match s.driveReq with
      | some r => r.kind == .formatPass
      | none => false) && y.serves && s.seq.pass.isNone) = s.passDueFor y := by
    rw [State.passDueFor, Bool.eq_iff_iff]
    cases s.driveReq <;> simp [and_assoc]
  rw [← show _ = s.passDueFor from funext due]
  rfl

/-- The judged counts of a period (R21, R22). -/
theorem judge_eq {x : Spindle} {n : Nat} (period : x.period = some n)
    (turns : x.state = .locking ∨ x.state = .atSpeed) :
    let e : Int := (n : Int) - 20000
    x.judge = { x with
      goodCount := if x.state = .locking then (if e.natAbs ≤ 100 then x.goodCount + 1 else 0) else x.goodCount
      badCount := if x.state = .atSpeed then (if e.natAbs ≤ 200 then 0 else x.badCount + 1) else x.badCount } := by
  intro e
  have within (bound : Nat) : x.within bound = decide (e.natAbs ≤ bound) := by
    rw [Spindle.within, period]
    rfl
  rcases turns with turns | turns <;> simp [Spindle.judge, turns, within]

theorem speedLoss_eq (v : State) :
    let lost : State := { v with
      spindle := { v.spindle with
        state := .locking, badCount := 0, goodCount := 0, regainTimer := some ⟨v.time, 3000000⟩ }
      session := v.session.map fun x => { x with speedSuspended := true, passDue := false } }
    v.speedLoss =
      ((((if v.seq.pass.isSome then lost.failPass .speed
          else if v.seq.op.isSome then lost.endOperation (.failed (if v.seq.gate then .torn else .speed))
          else lost).loadSpeedLoss).raiseFlag .speedLost).postBoth .spindleSpeedLost) := rfl

/-- Settles O48. -/
theorem regulatedIndexEvent : Obligations.RegulatedIndexEvent := by
  refine ⟨fun s o a turns index => ?_, fun v => ?_⟩
  · intro n e d x counted
    have event : exec (.indexEvent o) s = .next (s.indexRegulated o).finish := by
      change Host.Outcome.next _ = _
      rcases turns with turns | turns <;> rw [turns]
    refine ⟨fun pending => ?_, fun clear => ?_, fun v => ⟨fun locking good => ?_, fun fast bad => ?_, fun few => ?_⟩⟩
    · have counts : (s.regulate.sessionIndex.updSession fun y => { y with passDue := false }) =
          ({ s with spindle := x, session := counted fun _ => false } : State) := by
        rw [regulate_eq index, if_pos pending, sessionIndex_eq]
        simp only [State.updSession, State.countedSession, Option.map_map]
        rfl
      rw [event, State.indexRegulated, counts]
      rw [if_pos]
      rw [regulate_eq index]
      exact pending
    · intro v
      have counts : s.regulate.sessionIndex.updSpindle Spindle.judge = v := by
        have judged := judge_eq (x := { x with absenceTimer := some ⟨s.time, 40000⟩ }) (n := n) rfl turns
        rw [regulate_eq index, if_neg (by simp [clear]), sessionIndex_eq]
        exact congrArg (fun y : Spindle => ({ s with spindle := y, session := v.session } : State)) judged
      rw [event, State.indexRegulated, counts, if_neg]
      · cases o <;> rfl
      · rw [regulate_eq index]
        exact Bool.eq_false_iff.1 clear
    · exact if_pos (by simp [locking, good])
    · rw [State.speedReport, if_neg (by simp [fast]), if_pos (by simp [fast, bad])]
    · rw [State.speedReport, if_neg, if_neg]
      · rcases few with ⟨e, few⟩ | ⟨e, few⟩ <;> simp [e, few]
      · rcases few with ⟨e, few⟩ | ⟨e, few⟩ <;> simp [e, few]
  · intro lost away ended
    refine ⟨speedLoss_eq v, fun other => ?_, fun loading => ?_, fun c => rfl, fun none => ?_, fun pass last => ?_,
      fun pass early => ?_⟩
    · exact if_pos (by simp [other])
    · refine (if_neg (by simp [loading])).trans ?_
      rcases request : v.pos.request with _ | _ | _ <;> simp only [State.abandonLoad, State.updPos, request] <;> rfl
    · rw [State.passAtIndex, none]
      rfl
    · rw [State.passAtIndex, if_neg (by simpa using pass), if_pos last]
      rfl
    · rw [State.passAtIndex, if_neg (by simpa using pass), if_neg early, State.failPass, dropGate_of_off rfl]

end Sys2Proof.Machine
end

section
/-! SUPPORT. A spindle fault: what each block's part of it leaves alone. -/

namespace Sys2Proof.Machine

/-! ### The session that is left is a failed one -/

/-- The open session, if there is one, has failed (R87). -/
def State.FailedSession (s : State) : Prop := ∀ x, s.session = some x → x.failed = true

theorem failedSession_of_eq {s t : State} (same : t.session = s.session) (h : s.FailedSession) : t.FailedSession := by
  rwa [State.FailedSession, same]

theorem failedSession_updSession {s : State} {f : Session → Session}
    (keeps : ∀ x : Session, x.failed = true → (f x).failed = true) (h : s.FailedSession) :
    (s.updSession f).FailedSession := by
  intro x open_
  obtain ⟨y, held, rfl⟩ := Option.map_eq_some_iff.1 open_
  exact keeps y (h y held)

@[simp] theorem armEntry_session (s : State) (p : Port) (tag : Byte) : (s.armEntry p tag).session = s.session := by
  unfold State.armEntry
  split
  · rfl
  · exact State.updCtx_session _ _ _

@[simp] theorem judgeJoin_session (s : State) (p : Port) (tag : Byte) : (s.judgeJoin p tag).session = s.session := by
  unfold State.judgeJoin
  split
  · split
    · exact (armEntry_session _ _ _).trans (State.updCtx_session _ _ _)
    · rfl
  · rfl

@[simp] theorem judgeJoins_session (s : State) : s.judgeJoins.session = s.session :=
  foldl_closed (P := fun t => t.session = s.session) _ (fun _ _ hu => (judgeJoin_session _ _ _).trans hu)
    (foldl_closed (P := fun t => t.session = s.session) _ (fun _ _ hu => (judgeJoin_session _ _ _).trans hu) rfl)

@[simp] theorem completeEntry_session (s : State) (p : Port) (tag : Byte) (o : XferOutcome) :
    (s.completeEntry p tag o).session = s.session := by
  unfold State.completeEntry
  split
  · rfl
  · dsimp only
    split_ifs <;> simp [State.updEntry]

theorem failEntry_session (s : State) (p : Port) (e : Entry) (c : Cause) : (s.failEntry p e c).session = s.session := by
  unfold State.failEntry
  split_ifs
  · rfl
  · exact completeEntry_session _ _ _ _
  · exact completeEntry_session _ _ _ _
  · exact completeEntry_session _ _ _ _

theorem failEntries_session (s : State) (c : Cause) : (s.failEntries c).session = s.session :=
  foldl_closed (P := fun t => t.session = s.session) _ (fun _ _ hu => foldl_closed (P := fun t => t.session = s.session) _
    (fun _ _ hv => (failEntry_session _ _ _ _).trans hv) hu) rfl

theorem dropWaiting_session (s : State) : s.dropWaiting.session = s.session := by
  unfold State.dropWaiting
  split <;> rfl

theorem failedSession_closeJudgement {s : State} (h : s.FailedSession) : s.closeJudgement.FailedSession := by
  have judged : s.judgeJoins.FailedSession := failedSession_of_eq (judgeJoins_session s) h
  unfold State.closeJudgement
  dsimp only
  split
  · exact judged
  · exact ite_closed (fun _ none => nomatch none) judged

theorem failedSession_seekAbandoned {s : State} (h : s.FailedSession) : s.sessionSeekAbandoned.FailedSession := by
  have told := failedSession_updSession (f := fun x => { x with seekOutstanding := false }) (fun _ hx => hx) h
  unfold State.sessionSeekAbandoned
  split
  · exact h
  · exact ite_closed (failedSession_closeJudgement told) told

theorem failedSession_discardWaiting {s : State} (h : s.FailedSession) : s.discardWaiting.FailedSession :=
  ite_closed (failedSession_seekAbandoned (failedSession_of_eq (dropWaiting_session s) h)) h

theorem beginRetract_session (s : State) : s.beginRetract.session = s.session := by
  rw [beginRetract_frame]

theorem failedSession_retractRequest {s : State} (h : s.FailedSession) : s.retractRequest.FailedSession := by
  unfold State.retractRequest
  split
  · exact failedSession_discardWaiting h
  · exact ite_closed (failedSession_seekAbandoned h) h
  · exact failedSession_of_eq (beginRetract_session s) h
  all_goals exact h

theorem failedSession_rejectMount {s : State} (r : RejectReason) (h : s.FailedSession) :
    (s.rejectMount r).FailedSession := failedSession_retractRequest h

theorem failedSession_recordRead_speed {s : State} (h : s.FailedSession) :
    (s.recordReadJudgement (.failed .speed)).FailedSession := by
  unfold State.recordReadJudgement
  refine ite_closed ?_ h
  split <;> exact failedSession_rejectMount _ h

theorem maintenanceEnd_failed_session (s : State) (p : Port) (c : Cause) :
    (s.maintenanceEnd p (.failed c)).session = s.session := by
  unfold State.maintenanceEnd
  split
  · rfl
  · dsimp only
    split_ifs <;> exact State.updCtx_session _ _ _

theorem failedSession_reportDrive_speed {s : State} (h : s.FailedSession) :
    (s.reportDrive (.failed .speed)).FailedSession := by
  unfold State.reportDrive
  split
  · exact h
  · dsimp only
    split
    · exact failedSession_recordRead_speed h
    · exact failedSession_of_eq (maintenanceEnd_failed_session _ _ _) h

theorem failSession_speed_failed (s : State) : (s.failSession .speed .speed).FailedSession := by
  unfold State.failSession
  split
  next none => intro x open_; rw [none] at open_; cases open_
  next x _ =>
    extract_lets t1 _ t2 t3 t4 t5 t6
    have failed3 : t3.FailedSession := by
      intro y held
      obtain ⟨z, -, rfl⟩ := Option.map_eq_some_iff.1 held
      rfl
    have failed5 : t5.FailedSession := failedSession_of_eq (failEntries_session t4 _) failed3
    have failed6 : t6.FailedSession := by
      refine ite_closed ?_ failed5
      rw [State.driveCause, ite_self]
      exact failedSession_reportDrive_speed failed5
    exact failedSession_closeJudgement (ite_closed
      (failedSession_updSession (fun _ hx => hx) (failedSession_of_eq (dropWaiting_session t6) failed6)) failed6)

/-! ### What is left of the spindle, the flags and the heads -/

/-- A retract request touches the books, the positioner and the carriage. -/
theorem retractRequest_closed {P : State → Prop} (B : BookClosed P)
    (heads : ∀ s x c, P s → P { s with pos := x, carriage := c }) {s : State} (h : P s) : P s.retractRequest := by
  have moved (f : Positioner → Positioner) : P (s.updPos f) := heads s _ _ h
  have retracts : P s.beginRetract := by
    rw [beginRetract_frame]
    exact heads s _ _ h
  unfold State.retractRequest
  split
  · exact B.discardWaiting h
  · exact ite_closed (B.sessionSeekAbandoned (moved _)) (moved _)
  · exact retracts
  all_goals first | exact moved _ | exact h

/-- `t` is what `v` tells of a spindle fault. -/
def State.FaultTold (v t : State) : Prop :=
  t.spindle = v.spindle ∧ t.seq.current = v.seq.current ∧ t.time = v.time ∧
    t.faultOutstanding = v.faultOutstanding ∧ ∀ p, (t.ctx p).conditions = (v.ctx p).conditions

theorem faultTold_of_ctx {v t u : State} (spindle : u.spindle = t.spindle) (current : u.seq.current = t.seq.current)
    (time : u.time = t.time) (fault : u.faultOutstanding = t.faultOutstanding)
    (ctx : ∀ p, (u.ctx p).conditions = (t.ctx p).conditions) (h : v.FaultTold t) : v.FaultTold u := by
  obtain ⟨spindle', current', time', fault', ctx'⟩ := h
  exact ⟨spindle.trans spindle', current.trans current', time.trans time', fault.trans fault',
    fun p => (ctx p).trans (ctx' p)⟩

theorem setCtx_conditions {s : State} {q : Port} {c : PortContext} (aside : (s.ctx q).Aside c) (p : Port) :
    ((s.setCtx q c).ctx p).conditions = (s.ctx p).conditions := by
  obtain ⟨-, -, -, conditions, -, -⟩ := aside.fields
  cases p <;> cases q <;> first | exact conditions | rfl

theorem faultTold_heads {v t : State} (x : Positioner) (c : Nat) (h : v.FaultTold t) :
    v.FaultTold { t with pos := x, carriage := c } := faultTold_of_ctx rfl rfl rfl rfl (fun p => by cases p <;> rfl) h

theorem faultTold_books (v : State) : BookClosed v.FaultTold where
  session _ _ := faultTold_of_ctx rfl rfl rfl rfl fun p => by cases p <;> rfl
  slots _ _ := faultTold_of_ctx rfl rfl rfl rfl fun p => by cases p <;> rfl
  pool _ _ := faultTold_of_ctx rfl rfl rfl rfl fun p => by cases p <;> rfl
  waiting t h := ite_closed (faultTold_heads _ t.carriage h) h
  context t q c aside := faultTold_of_ctx (by cases q <;> rfl) (by cases q <;> rfl) (by cases q <;> rfl)
    (by cases q <;> rfl) (setCtx_conditions aside)

theorem faultTold_closed (v : State) : FailClosed v.FaultTold where
  toBookClosed := faultTold_books v
  custody _ _ := faultTold_of_ctx rfl rfl rfl rfl fun p => by cases p <;> rfl
  locks _ := faultTold_of_ctx rfl rfl rfl rfl fun p => by cases p <;> rfl
  retract _ h := retractRequest_closed (faultTold_books v) (fun _ _ _ => faultTold_heads _ _) h
  driveReq _ _ := faultTold_of_ctx rfl rfl rfl rfl fun p => by cases p <;> rfl
  copy _ _ := faultTold_of_ctx rfl rfl rfl rfl fun p => by cases p <;> rfl
  gate t h := by
    rw [dropGate_frame]
    exact faultTold_of_ctx rfl rfl rfl rfl (fun p => by cases p <;> rfl) h
  work _ _ _ := faultTold_of_ctx rfl rfl rfl rfl fun p => by cases p <;> rfl

/-- A retract that begins. -/
theorem beginRetract_pos_state (s : State) : s.beginRetract.pos.state = .retracting := by
  rw [beginRetract_eq, startMove_eq]
  split_ifs <;> rfl

/-- The positioner's state is one of `S`, which a retract request does not leave. -/
theorem headsIn_closed {S : PosState → Prop} (lets : S .loading → S .unloaded) (leaves : S .onTrack → S .retracting) :
    FailClosed fun t => S t.pos.state := by
  have books : BookClosed fun t => S t.pos.state :=
    { session := fun _ _ h => h
      slots := fun _ _ h => h
      pool := fun _ _ h => h
      waiting := fun _ h => ite_closed (P := fun t => S t.pos.state) h h
      context := fun t q c _ h => by cases q <;> exact h }
  refine { books with
    custody := fun _ _ h => h
    locks := fun _ h => h
    retract := fun t h => ?_
    driveReq := fun _ _ h => h
    copy := fun _ _ h => h
    gate := fun t h => by rw [dropGate_frame]; exact h
    work := fun _ _ _ h => h }
  unfold State.retractRequest
  cases state : t.pos.state with
  | unloaded => exact books.discardWaiting h
  | loading =>
    have parked : S .unloaded := lets (state ▸ h)
    exact ite_closed (P := fun t => S t.pos.state) (books.sessionSeekAbandoned parked) parked
  | onTrack =>
    rw [beginRetract_pos_state]
    exact leaves (state ▸ h)
  | recalibrating => exact h
  | seeking => exact h
  | settling => exact h
  | retracting => exact h
  | emergencyRetract => exact h

theorem noDriveReq_books : BookClosed fun t => t.driveReq = none where
  session _ _ h := h
  slots _ _ h := h
  pool _ _ h := h
  waiting _ h := ite_closed (P := fun t => t.driveReq = none) h h
  context t q c _ h := by cases q <;> exact h

theorem noDriveReq_closed : RejectClosed fun t => t.driveReq = none where
  toBookClosed := noDriveReq_books
  custody _ _ h := h
  locks _ h := h
  retract _ h := retractRequest_closed noDriveReq_books (fun _ _ _ h => h) h

theorem reportDrive_speed_driveReq (s : State) : (s.reportDrive (.failed .speed)).driveReq = none := by
  have rejects {u : State} (h : u.driveReq = none) (r : RejectReason) : (u.rejectMount r).driveReq = none :=
    noDriveReq_closed.rejectMount h r
  unfold State.reportDrive
  split
  · assumption
  · dsimp only
    split
    · unfold State.recordReadJudgement
      refine ite_closed (P := fun t => t.driveReq = none) ?_ rfl
      split <;> exact rejects rfl _
    · unfold State.maintenanceEnd
      split
      · rfl
      · dsimp only
        split_ifs <;> exact State.updCtx_driveReq _ _ _

/-! ### Custody's and the positioner's part (R54, R98) -/

theorem custodySpindleFault_eq (u : State) : u.custodySpindleFault =
    if u.custody.state = .mounting ∧ u.custody.step ≠ some .latching ∧ u.custody.supplyHold = false then
      u.rejectMount .spindle else u := by
  simp [State.custodySpindleFault, and_assoc]

/-- A rejected mount leaves custody in UNMOUNTING. -/
theorem rejectMount_custody_state (s : State) (r : RejectReason) : (s.rejectMount r).custody.state = .unmounting := by
  have books : BookClosed fun t => t.custody.state = .unmounting :=
    { session := fun _ _ h => h
      slots := fun _ _ h => h
      pool := fun _ _ h => h
      waiting := fun _ h => ite_closed (P := fun t => t.custody.state = .unmounting) h h
      context := fun t q c _ h => by cases q <;> exact h }
  exact retractRequest_closed books (fun _ _ _ h => h) rfl

/-- Custody waits for no answer to a recalibrate request. -/
def State.AsksNothing (s : State) : Prop := s.mountsAt .loading = false ∧ s.mountsAt .recalibrating = false

theorem custodyRecalFailed_of_asksNothing {s : State} (h : s.AsksNothing) : s.custodyRecalFailed = s := by
  rw [State.custodyRecalFailed, h.1, h.2]
  rfl

theorem custodyRecalFailed_of_moved {s : State} (h : s.AsksNothing) (x : Positioner) :
    ({ s with pos := x } : State).custodyRecalFailed = { s with pos := x } := custodyRecalFailed_of_asksNothing h

theorem custodySpindleFault_asksNothing (u : State) : u.custodySpindleFault.AsksNothing := by
  rw [custodySpindleFault_eq]
  split_ifs with mounts
  · have gone := rejectMount_custody_state u .spindle
    exact ⟨by simp [State.mountsAt, gone], by simp [State.mountsAt, gone]⟩
  · constructor <;>
    · rw [← Bool.not_eq_true, mountsAt_iff]
      rintro ⟨state, step, hold⟩
      exact mounts ⟨state, by simp [step], hold⟩

theorem posSpindleFault_eq (u : State) :
    let kept : State := { u with pos := { u.pos with heldRetract := true } }
    let away : State := { u with pos := { u.pos with
      state := .unloaded, loadTimer := none, plan := [], waitingTarget := none, request := none } }
    u.posSpindleFault = match u.pos.state, u.pos.request with
      | .unloaded, _ => u.discardWaiting
      | .loading, some .recalibrate => away.custodyRecalFailed
      | .loading, some (.seek _) => away.sessionSeekAbandoned
      | .loading, none => away
      | .recalibrating, _ => kept
      | .seeking, _ => kept
      | .settling, _ => kept
      | .onTrack, _ => u.beginRetract
      | .retracting, _ => u
      | .emergencyRetract, _ => u := by
  unfold State.posSpindleFault
  cases u.pos.state <;> try rfl
  rcases u.pos.request with _ | _ | _ <;> rfl

theorem posSpindleFault_closed {P : State → Prop} (B : BookClosed P)
    (heads : ∀ s x c, P s → P { s with pos := x, carriage := c }) {u : State} (idle : u.AsksNothing) (h : P u) :
    P u.posSpindleFault := by
  have moved (x : Positioner) : P { u with pos := x } := heads u x u.carriage h
  rw [posSpindleFault_eq]
  split
  · exact B.discardWaiting h
  · rw [custodyRecalFailed_of_moved idle]
    exact moved _
  · exact B.sessionSeekAbandoned (moved _)
  · exact moved _
  · exact moved _
  · exact moved _
  · exact moved _
  · rw [beginRetract_frame]
    exact heads _ _ _ h
  · exact h
  · exact h

theorem failedSession_posSpindleFault {u : State} (idle : u.AsksNothing) (h : u.FailedSession) :
    u.posSpindleFault.FailedSession := by
  rw [posSpindleFault_eq]
  split
  · exact failedSession_discardWaiting h
  · rw [custodyRecalFailed_of_moved idle]
    exact h
  · exact failedSession_seekAbandoned h
  · exact h
  · exact h
  · exact h
  · exact h
  · exact failedSession_of_eq (beginRetract_session u) h
  · exact h
  · exact h

/-- The heads after the positioner's part: parked, on their way out, or held for their retract. -/
theorem posSpindleFault_pos {u : State} (idle : u.AsksNothing) :
    (u.pos.state = .unloaded ∨ u.pos.state = .loading → u.posSpindleFault.pos.state = .unloaded) ∧
    (u.pos.state = .onTrack ∨ u.pos.state = .retracting → u.posSpindleFault.pos.state = .retracting) ∧
    (u.pos.state = .recalibrating ∨ u.pos.state = .seeking ∨ u.pos.state = .settling →
      u.posSpindleFault.pos.state = u.pos.state ∧ u.posSpindleFault.pos.heldRetract = true) := by
  have parks := (headsIn_closed (S := (· = .unloaded)) (fun h => nomatch h) (fun h => nomatch h)).toBookClosed
  rw [posSpindleFault_eq]
  refine ⟨fun state => ?_, fun state => ?_, fun state => ?_⟩
  · rcases state with state | state
    · simp only [state]
      exact parks.discardWaiting state
    · rcases request : u.pos.request with _ | _ | _ <;> simp only [state]
      · exact parks.sessionSeekAbandoned rfl
      · rw [custodyRecalFailed_of_moved idle]
  · rcases state with state | state <;> simp only [state]
    exact beginRetract_pos_state u
  · rcases state with state | state | state <;> simp only [state, and_self]

/-! ### The fault as a whole (R24, R88) -/

/-- The fault's record, its condition and its notice. -/
def State.faultRecorded (s : State) (c : SpindleCause) : State :=
  (({ s with
    spindle := { s.spindle with
      firstIndexTimer := none, lockTimer := none, absenceTimer := none, regainTimer := none, quietTimer := none,
      lastFault := some c, standbyStop := false }
    faultOutstanding := true } : State).raiseFlag .spindleFault).postBoth (.spindleFault c)

/-- The fault, once the session and the drive-owned request have failed. -/
def State.faultReported (s : State) (c : SpindleCause) : State :=
  ((s.faultRecorded c).failSession .speed .speed).reportDrive (.failed .speed)

/-- The spindle's own part: it brakes, or the fault is pending. -/
def State.faultTaken (s : State) (c : SpindleCause) : State :=
  if s.faultBrakesNow then (s.faultReported c).enterBraking
  else { s.faultReported c with
    spindle := { (s.faultReported c).spindle with
      state := if (s.faultReported c).spindle.state = .atSpeed then .locking else (s.faultReported c).spindle.state
      faultPending := true }
    seq := { (s.faultReported c).seq with current := none } }

theorem spindleFault_eq (s : State) (c : SpindleCause) :
    s.spindleFault c = (s.faultTaken c).custodySpindleFault.posSpindleFault := rfl

theorem faultBrakesNow_iff (s : State) : s.faultBrakesNow = true ↔ s.spindle.state = .starting ∨
    s.pos.state = .unloaded ∨ s.pos.state = .loading ∨ s.pos.state = .retracting ∨ s.pos.state = .emergencyRetract := by
  simp [State.faultBrakesNow, or_assoc]

theorem faultTold_reported (s : State) (c : SpindleCause) : (s.faultRecorded c).FaultTold (s.faultReported c) := by
  have C := faultTold_closed (s.faultRecorded c)
  have judge (u : State) (h : (s.faultRecorded c).FaultTold u) := C.recordRead_speed h
  exact C.reportDrive (C.failSession ⟨rfl, rfl, rfl, rfl, fun _ => rfl⟩ judge judge) judge

theorem headsIn_reported {S : PosState → Prop} (lets : S .loading → S .unloaded) (leaves : S .onTrack → S .retracting)
    (s : State) (c : SpindleCause) (h : S s.pos.state) : S (s.faultReported c).pos.state := by
  have C := headsIn_closed lets leaves
  have judge (u : State) (h : S u.pos.state) := C.recordRead_speed h
  exact C.reportDrive (C.failSession (s := s.faultRecorded c) h judge judge) judge

theorem faultTaken_pos (s : State) (c : SpindleCause) : (s.faultTaken c).pos = (s.faultReported c).pos := by
  unfold State.faultTaken
  split
  · rw [enterBraking_eq]
  · rfl

theorem faultTaken_session (s : State) (c : SpindleCause) : (s.faultTaken c).session = (s.faultReported c).session := by
  unfold State.faultTaken
  split
  · rw [enterBraking_eq]
  · rfl

theorem faultTaken_driveReq (s : State) (c : SpindleCause) : (s.faultTaken c).driveReq = none := by
  have reported : (s.faultReported c).driveReq = none := reportDrive_speed_driveReq _
  unfold State.faultTaken
  split
  · rwa [enterBraking_eq]
  · exact reported

theorem faultTaken_told (s : State) (c : SpindleCause) :
    (s.faultTaken c).faultOutstanding = true ∧ (s.faultTaken c).seq.current = none ∧
    (s.faultTaken c).spindle.lastFault = some c ∧ (s.faultTaken c).spindle.firstIndexTimer = none ∧
    (s.faultTaken c).spindle.lockTimer = none ∧ (s.faultTaken c).spindle.absenceTimer = none ∧
    (s.faultTaken c).spindle.regainTimer = none ∧ (s.faultTaken c).spindle.standbyStop = false ∧
    ∀ p, ((s.faultTaken c).ctx p).conditions = ((s.faultRecorded c).ctx p).conditions := by
  obtain ⟨spindle, -, -, fault, conditions⟩ := faultTold_reported s c
  have stands (q : State) (same : q.portA = (s.faultReported c).portA ∧ q.portB = (s.faultReported c).portB)
      (p : Port) : (q.ctx p).conditions = ((s.faultRecorded c).ctx p).conditions := by
    rw [ctx_of_ports same.1 same.2, conditions]
  have last := congrArg Spindle.lastFault spindle
  have first := congrArg Spindle.firstIndexTimer spindle
  have lock := congrArg Spindle.lockTimer spindle
  have absence := congrArg Spindle.absenceTimer spindle
  have regain := congrArg Spindle.regainTimer spindle
  have standby := congrArg Spindle.standbyStop spindle
  unfold State.faultTaken
  split
  · rw [enterBraking_eq]
    exact ⟨fault, rfl, last, rfl, rfl, rfl, rfl, rfl, stands _ ⟨rfl, rfl⟩⟩
  · exact ⟨fault, rfl, last, first, lock, absence, regain, standby, stands _ ⟨rfl, rfl⟩⟩

theorem spindleFault_told (s : State) (c : SpindleCause) : (s.faultTaken c).FaultTold (s.spindleFault c) := by
  have C := faultTold_closed (s.faultTaken c)
  have self : (s.faultTaken c).FaultTold (s.faultTaken c) := ⟨rfl, rfl, rfl, rfl, fun _ => rfl⟩
  refine posSpindleFault_closed C.toBookClosed (fun _ _ _ => faultTold_heads _ _) (custodySpindleFault_asksNothing _) ?_
  rw [custodySpindleFault_eq]
  exact ite_closed (C.rejectMount self _) self

theorem spindleFault_driveReq (s : State) (c : SpindleCause) : (s.spindleFault c).driveReq = none := by
  refine posSpindleFault_closed (P := fun t => t.driveReq = none) noDriveReq_books (fun _ _ _ h => h)
    (custodySpindleFault_asksNothing _) ?_
  rw [custodySpindleFault_eq]
  exact ite_closed (P := fun t => t.driveReq = none) (noDriveReq_closed.rejectMount (faultTaken_driveReq s c) _)
    (faultTaken_driveReq s c)

theorem spindleFault_session (s : State) (c : SpindleCause) : (s.spindleFault c).FailedSession := by
  have taken : (s.faultTaken c).FailedSession :=
    failedSession_of_eq (faultTaken_session s c) (failedSession_reportDrive_speed (failSession_speed_failed _))
  refine failedSession_posSpindleFault (custodySpindleFault_asksNothing _) ?_
  rw [custodySpindleFault_eq]
  exact ite_closed (failedSession_rejectMount _ taken) taken

/-- The heads before the positioner's own part. -/
theorem headsIn_custodySpindleFault {S : PosState → Prop} (lets : S .loading → S .unloaded)
    (leaves : S .onTrack → S .retracting) (s : State) (c : SpindleCause) (h : S s.pos.state) :
    S (s.faultTaken c).custodySpindleFault.pos.state := by
  have taken : S (s.faultTaken c).pos.state := by
    rw [faultTaken_pos]
    exact headsIn_reported lets leaves s c h
  rw [custodySpindleFault_eq]
  exact ite_closed (P := fun t => S t.pos.state) ((headsIn_closed lets leaves).rejectMount taken _) taken

theorem spindleFault_pos (s : State) (c : SpindleCause) :
    (s.pos.state = .unloaded ∨ s.pos.state = .loading → (s.spindleFault c).pos.state = .unloaded) ∧
    (s.pos.state = .onTrack → (s.spindleFault c).pos.state = .retracting) ∧
    (s.pos.state = .recalibrating ∨ s.pos.state = .seeking ∨ s.pos.state = .settling →
      (s.spindleFault c).pos.state = s.pos.state ∧ (s.spindleFault c).pos.heldRetract = true) := by
  obtain ⟨parked, onTrack, moving⟩ := posSpindleFault_pos (custodySpindleFault_asksNothing (s.faultTaken c))
  refine ⟨fun heads => parked ?_, fun heads => onTrack ?_, fun heads => ?_⟩
  · exact headsIn_custodySpindleFault (S := fun x => x = .unloaded ∨ x = .loading) (fun _ => .inl rfl) nofun s c heads
  · exact headsIn_custodySpindleFault (S := fun x => x = .onTrack ∨ x = .retracting) nofun (fun _ => .inr rfl) s c
      (.inl heads)
  · have still : (s.faultTaken c).custodySpindleFault.pos.state = s.pos.state :=
      headsIn_custodySpindleFault (S := fun x => x = s.pos.state) (fun h => by simp [← h] at heads)
        (fun h => by simp [← h] at heads) s c rfl
    rw [← still] at heads ⊢
    exact moving heads

theorem faultRecorded_condition (s : State) (c : SpindleCause) (p : Port) (connected : (s.ctx p).linkPresent = true) :
    ((s.faultRecorded c).ctx p).conditions.spindleFault = true := by
  obtain ⟨-, -, -, conditions, -, -⟩ := PortContext.aside_post _ _ |>.fields
  rw [State.faultRecorded, State.postBoth_ctx, conditions, State.raiseFlag_ctx, PortContext.raise]
  cases p <;> exact (if_pos connected).symm ▸ rfl

theorem fault_exec (s : State) (f : Instr × Option Timer × SpindleCause)
    (h : f ∈ [(Instr.firstIndexTimerExpiry, s.spindle.firstIndexTimer, SpindleCause.noIndex),
      (.lockTimerExpiry, s.spindle.lockTimer, .noLock), (.indexAbsenceTimerExpiry, s.spindle.absenceTimer, .indexLost),
      (.regainTimerExpiry, s.spindle.regainTimer, .notRegained)]) (x : Timer) (timer : f.2.1 = some x) :
    exec f.1 s = .next (if x.length ≤ (s.time - x.start).toNat then (s.spindleFault f.2.2).finish else s) := by
  have runs (t : Option Timer) (c : SpindleCause) (timer : t = some x) :
      (if expired t s.time then (s.spindleFault c).finish else s) =
        if x.length ≤ (s.time - x.start).toNat then (s.spindleFault c).finish else s := by
    simp only [timer, expired_some, decide_eq_true_eq]
  simp only [List.mem_cons, List.not_mem_nil, or_false] at h
  rcases h with rfl | rfl | rfl | rfl <;> exact congrArg Host.Outcome.next (runs _ _ timer)

/-- Settles O49. -/
theorem faultTimersRaiseTheFault : Obligations.FaultTimersRaiseTheFault := by
  refine ⟨fun s => ⟨fun f h x timer => fault_exec s f h x timer, fun c => ?_⟩, fun s c => ?_, fun u =>
    ⟨custodySpindleFault_eq u, posSpindleFault_eq u⟩⟩
  · intro t
    obtain ⟨spindle, current, time, fault, conditions⟩ : (s.faultTaken c).FaultTold t := spindleFault_told s c
    obtain ⟨outstanding, none, last, first, lock, absence, regain, standby, conditions'⟩ := faultTaken_told s c
    obtain ⟨reported, -, now, -, -⟩ := faultTold_reported s c
    refine ⟨spindle ▸ last, fault.trans outstanding, current.trans none, spindleFault_driveReq s c, spindle ▸ first,
      spindle ▸ lock, spindle ▸ absence, spindle ▸ regain, spindle ▸ standby, fun p connected => ?_,
      spindleFault_session s c, fun brakes => ?_, fun turns heads => ?_, spindleFault_pos s c⟩
    · rw [conditions, conditions']
      exact faultRecorded_condition s c p connected
    · rw [spindle, State.faultTaken, if_pos ((faultBrakesNow_iff s).2 brakes), enterBraking_eq, now]
      exact ⟨rfl, rfl, rfl, rfl⟩
    · have waits : ¬ s.faultBrakesNow = true := by
        rw [faultBrakesNow_iff]
        rcases heads with h | h | h | h <;> simp [h, turns]
      rw [spindle, State.faultTaken, if_neg waits, reported]
      exact ⟨rfl, rfl, rfl⟩
  · intro told t waits braked pending
    have brake : (s.faultReported c).enterBraking = braked := by
      rw [enterBraking_eq, waitsForSpeed_eq]
      rfl
    rw [spindleFault_eq, State.faultTaken, brake]
    simp only [faultBrakesNow_iff]
    rfl

end Sys2Proof.Machine
end

section
/-! SUPPORT. An operation inside its sector (R7, R81, R82), and what the channel finds. -/

namespace Sys2Proof.Machine

theorem judgeFound_eq {s : State} {x : Session} (open_ : s.session = some x) (o : Operation) (h : HeaderReading) :
    s.judgeFound o h = judgeHeader x.track x.head o.sector (s.headerFound o h) := by
  rw [State.judgeFound, open_]

theorem sessionHead_eq {s : State} {x : Session} (open_ : s.session = some x) : s.sessionHead = x.head := by
  rw [State.sessionHead, open_]

/-- The header is judged once (R7); the gate goes on where the operation writes and the law holds (R82). -/
theorem exec_dataFieldReached {s : State} {o : Operation} {h : HeaderReading} (flight : s.seq.op = some o)
    (wf : h.wf = true) : exec (.dataFieldReached h) s = .next
      (if o.headerMatched = false ∧ s.judgeFound o h = .matching then
        { s with seq := { s.seq with
          op := some { o with headerMatched := true }, gate := s.seq.gate || (o.kind.writes && s.gateLaw) } }
      else s) := by
  refine (if_pos (c := (Instr.dataFieldReached h).wf) wf).trans (congrArg Host.Outcome.next ?_)
  simp only [flight, Bool.and_eq_true, Bool.not_eq_true', beq_iff_eq]

theorem exec_checkBytesRecorded {s : State} {o : Operation} (flight : s.seq.op = some o) :
    exec .checkBytesRecorded s = .next (if (o.kind = .write ∨ o.kind = .recordWrite) ∧ s.seq.gate = true then
      { s.setImage s.sessionHead o.sector
          ⟨(s.image s.sessionHead o.sector).header, .recorded (dataFieldBytes (s.bufferBytes o.buffer)),
            (s.image s.sessionHead o.sector).gaps⟩ with
        seq := { s.seq with op := some { o with recorded := true }, gate := false } } else s) := by
  refine congrArg Host.Outcome.next ?_
  simp only [flight, Bool.and_eq_true, opKind_writes]
  rfl

theorem exec_operationEndPoint {s : State} {o : Operation} {h : HeaderReading} {d : DataReading}
    (flight : s.seq.op = some o) (wf : h.wf = true) (wf' : d.wf = true) : exec (.operationEndPoint h d) s =
      .next (if 950 ≤ (s.time - o.start).toNat then (s.endByResult o h d).finish else s) := by
  have due : s.endPointDue = decide (950 ≤ (s.time - o.start).toNat) := by
    rw [State.endPointDue, flight]
    rfl
  have both : (Instr.operationEndPoint h d).wf = true := by
    change (h.wf && d.wf) = true
    rw [wf, wf']
    rfl
  refine (if_pos (c := (Instr.operationEndPoint h d).wf) both).trans (congrArg Host.Outcome.next ?_)
  simp only [flight, due, decide_eq_true_eq]

theorem endByResult_of_unmatched {s : State} {o : Operation} {h : HeaderReading} (d : DataReading)
    (unmatched : o.headerMatched = false) :
    (s.judgeFound o h = .trackMismatch → s.endByResult o h d = s.endOperation .mismatch) ∧
    (∀ c, s.judgeFound o h = .failed c → s.endByResult o h d = s.endOperation (.failed c)) := by
  constructor
  · intro judged
    simp [State.endByResult, unmatched, judged]
  · intro c judged
    simp [State.endByResult, unmatched, judged]

theorem endByResult_of_matching {s : State} {o : Operation} {h : HeaderReading} (d : DataReading)
    (matched : o.headerMatched = true ∨ s.judgeFound o h = .matching) :
    s.endByResult o h d = if o.kind.writes then s.endWriting o else s.endReading o d := by
  have judged : (if o.headerMatched then HeaderJudgement.matching else s.judgeFound o h) = .matching := by
    rcases matched with matched | matched <;> simp [matched]
  rw [State.endByResult, judged]

theorem endReading_eq (s : State) (o : Operation) (d : DataReading) :
    s.endReading o d = (if o.kind = .verify then { s with freeCount := s.freeCount + 1 } else
      ({ s with freeCount := s.freeCount + 1 } : State).storeBuffer o.buffer 0 (s.dataFound o d).1).endOperation
        (if (s.dataFound o d).2 then .done else .failed .dataCheck) := by
  unfold State.endReading
  dsimp only
  split <;> rfl

/-- A data field gives back what was recorded in it (R5, R6). -/
theorem dataField_reads_back {b : List Byte} (whole : b.length = 512) :
    ((dataFieldBytes b).take 512, checkGood ((dataFieldBytes b).take 512) ((dataFieldBytes b).drop 512)) =
      (b, true) := by
  rw [dataFieldBytes, List.take_left' whole, List.drop_left' whole, checkGood, beq_self_eq_true]

theorem dataFound_of_recorded {s : State} {o : Operation} {b : List Byte}
    (field : (s.image s.sessionHead o.sector).data = .recorded b) :
    s.dataFound o .asRecorded = s.dataFound o (.received b) := by
  simp only [State.dataFound, field]

/-- Settles O54. -/
theorem operationsRunToTheirEnd : Obligations.OperationsRunToTheirEnd := by
  refine ⟨fun s o x h d flight open_ wf wf' => ?_, fun s o x open_ => ?_⟩
  · intro judged law writes
    have judge : s.judgeFound o h = judged := judgeFound_eq open_ o h
    have gate : (o.kind.writes && s.gateLaw) = true ↔ writes ∧ law := by
      rw [Bool.and_eq_true, opKind_writes, gateLaw_iff]
    have reached := exec_dataFieldReached flight wf
    have checked := exec_checkBytesRecorded flight
    have ended := exec_operationEndPoint flight wf wf'
    rw [judge] at reached
    rw [sessionHead_eq open_] at checked
    refine ⟨fun unmatched matching => ⟨fun w l => ?_, fun not => ?_⟩, fun other => ?_, fun w on => ?_, fun other => ?_,
      fun early => ?_, fun late => ?_⟩
    · rw [reached, if_pos ⟨unmatched, matching⟩, gate.2 ⟨w, l⟩, Bool.or_true]
    · have off : (o.kind.writes && s.gateLaw) = false := by
        rw [← Bool.not_eq_true, gate]
        tauto
      rw [reached, if_pos ⟨unmatched, matching⟩, off, Bool.or_false]
    · rw [reached, if_neg]
      rintro ⟨unmatched, matching⟩
      rcases other with matched | other
      · rw [unmatched] at matched
        cases matched
      · exact other matching
    · rw [checked, if_pos ⟨w, on⟩]
    · rw [checked, if_neg]
      rintro ⟨w, on⟩
      rcases other with other | off
      · exact other w
      · rw [on] at off
        cases off
    · rw [ended, if_neg (Nat.not_le.2 early)]
    · intro ends
      have by_ (t : State) (r : OpResult) (result : s.endByResult o h d = t.endOperation r) : ends t r := by
        change exec (.operationEndPoint h d) s = _
        rw [ended, if_pos late, result]
      refine ⟨fun unmatched other => by_ _ _ ?_, fun c unmatched other => by_ _ _ ?_, fun matched => ?_⟩
      · exact (endByResult_of_unmatched d unmatched).1 (judge.trans other)
      · exact (endByResult_of_unmatched d unmatched).2 c (judge.trans other)
      rw [← judge] at matched
      have result := endByResult_of_matching d matched
      refine ⟨fun w whole => by_ _ _ ?_, fun w cut => by_ _ _ ?_, fun reads => ?_⟩
      · rw [result, if_pos ((opKind_writes _).2 w), State.endWriting, if_pos whole]
      · rw [result, if_pos ((opKind_writes _).2 w), State.endWriting, if_neg (Bool.not_eq_true _ ▸ cut)]
        rfl
      · intro found t kept
        rw [if_neg (fun w => reads ((opKind_writes _).1 w)), endReading_eq] at result
        refine ⟨fun good => by_ kept _ ?_, fun bad => by_ kept _ ?_, fun b received => ?_⟩
        · rw [result, show (s.dataFound o d).2 = true from good]
          rfl
        · rw [result, show (s.dataFound o d).2 = false from bad]
          rfl
        · subst received
          rfl
  · intro i bytes
    have image : s.image s.sessionHead o.sector = i := by rw [sessionHead_eq open_]
    refine ⟨rfl, fun _ => rfl, ?_, fun _ => rfl, fun b field => dataFound_of_recorded (image ▸ field),
      fun b whole field => ?_, fun seed field => ?_, fun field => ?_, fun h k p field => ?_⟩
    · simp only [State.headerFound, image] <;> rfl
    · exact (dataFound_of_recorded (image ▸ field)).trans (dataField_reads_back whole)
    · simp only [State.dataFound, image, field]
      rfl
    · simp only [State.dataFound, image, field]
      rfl
    · simp only [State.headerFound, image, field]

end Sys2Proof.Machine
end


section
/-! SUPPORT. The end of an operation (R83, R86, R90), by what owns its slot, and the failure of a session. -/

namespace Sys2Proof.Machine

theorem dropGate_session (s : State) : s.dropGate.session = s.session := by rw [dropGate_frame]

/-- The mismatch's act on the session (R86, R87). -/
theorem mismatchAct_eq (v : State) : v.mismatchAct = match v.session with
    | none => v.setUncertain
    | some y =>
      if y.mismatches = 0 then
        (({ v with session := some { y with
          mismatches := 1, positionSuspended := true, seekOutstanding := true } } : State).setUncertain).seekRequest
            y.track
      else v.setUncertain.failSession .position .position := by
  unfold State.mismatchAct
  split
  next none => simp only [none]
  next y open_ => simp only [State.updSession, open_, Option.map_some]

theorem mismatch_rearms {v : State} {y : Session} (open_ : v.session = some y) (k : Nat) :
    v.mismatchRearm k = if y.mismatches = 0 then v.setSlot k { v.slot k with state := .armed } else v := by
  rw [State.mismatchRearm, open_]

theorem outcomeOf_eq (v : State) (e : Entry) : v.outcomeOf e = match e.resolved with
    | none => .done
    | some f => match ((List.range e.count).map fun i => (f + i) % 20).find? fun k => (v.slot k).state == .failed with
      | none => .done
      | some k => .failed (some k) ((v.slot k).cause.getD .noHeader) := rfl

theorem judgeCompletion_of_some {v : State} {p : Port} {tag : Byte} {e : Entry} (live : v.entry? p tag = some e) :
    v.judgeCompletion p tag = if v.hasOpenSlot p tag then v
      else ((v.emptySlots p tag).completeEntry p tag (v.outcomeOf e)).closeJudgement := by
  rw [State.judgeCompletion, live]

theorem fail_of_last {x : Slot} (last : x.retries = 0) (c : Cause) :
    x.fail c = { x with state := .failed, cause := some c } := if_pos last

theorem fail_of_more {x : Slot} (more : x.retries ≠ 0) (c : Cause) :
    x.fail c = { x with state := .armed, retries := x.retries - 1, cause := some c } := if_neg more

/-! ### By the owner of the slot -/

section
variable {s : State} {o : Operation} (r : OpResult) (flight : s.seq.op = some o) (off : s.seq.gate = false)
include flight off

theorem endOperation_of_entry {p : Port} {tag : Byte} {e : Entry} (owner : (s.slot o.sector).owner = some (.port p))
    (tagged : (s.slot o.sector).tag = some tag) (live : s.entry? p tag = some e) : s.endOperation r =
      let t : State := { s with seq := { s.seq with op := none } }
      if e.discard then t.endDiscardedOp o.sector r
      else if e.cancelling then t.endCancelledOp p tag o.sector r
      else t.endServedOp p tag o.sector r := by
  have held (q : Sequencer) : ({ s with seq := q } : State).entry? p tag = some e := by
    rw [← live]
    cases p <;> rfl
  have ownerHeld (q : Sequencer) : (({ s with seq := q } : State).slot o.sector).owner = some (.port p) := owner
  have tagHeld (q : Sequencer) : (({ s with seq := q } : State).slot o.sector).tag = some tag := tagged
  simp only [State.endOperation, flight, dropGate_of_off off, ownerHeld, tagHeld, held]

theorem endOperation_of_drive (owner : (s.slot o.sector).owner = some .drive) : s.endOperation r =
    ({ s with seq := { s.seq with op := none } } : State).endDriveOp o.sector r := by
  have held (q : Sequencer) : (({ s with seq := q } : State).slot o.sector).owner = some .drive := owner
  simp only [State.endOperation, flight, dropGate_of_off off, held]

end

theorem endOperation_of_none {s : State} (idle : s.seq.op = none) (r : OpResult) : s.endOperation r = s := by
  rw [State.endOperation, idle]

/-- The gate goes off first (R82). -/
theorem endOperation_dropGate {s : State} (busy : s.seq.op ≠ none) (r : OpResult) :
    s.endOperation r = s.dropGate.endOperation r := by
  obtain ⟨o, flight⟩ := Option.ne_none_iff_exists'.1 busy
  have flight' : s.dropGate.seq.op = some o := by rw [dropGate_seq, flight]
  have again : s.dropGate.dropGate = s.dropGate := dropGate_of_off (by rw [dropGate_seq])
  rw [State.endOperation, State.endOperation, flight, flight', again]

/-! ### The drive-owned request and the failing session -/

theorem reportDrive_of_some {s : State} {r : DriveRequest} (o : DriveOutcome) (held : s.driveReq = some r) :
    s.reportDrive o =
      let t : State := { s with
        driveReq := none, slots := s.slots.map fun x => if x.owner = some .drive then Slot.blank else x }
      match r.requester with
      | .custody => t.recordReadJudgement o
      | .maintenance p => t.maintenanceEnd p o := by
  simp only [State.reportDrive, held, State.mapSlots, beq_iff_eq] <;> rfl

theorem failSlot_eq (u : State) (cause active : Cause) (y : Slot) : u.failSlot cause active y =
    if y.state = .empty ∨ y.state = .done ∨ y.state = .failed then y
    else if ([Port.a, .b].any fun p => (u.ctx p).queue.any fun e =>
      decide (e.discard = true ∧ y.owner = some (.port p) ∧ y.tag = some e.tag)) then Slot.blank
    else { y with state := .failed, cause := some (if y.state = .active then active else cause) } := by
  have discarded : u.discardedSlot y = [Port.a, .b].any fun p => (u.ctx p).queue.any fun e =>
      decide (e.discard = true ∧ y.owner = some (.port p) ∧ y.tag = some e.tag) := by
    simp only [State.discardedSlot, Port.both, Slot.heldBy, Bool.decide_and, beq_eq_decide, Bool.decide_eq_true]
  have final : (!y.nonFinal) = true ↔ y.state = .empty ∨ y.state = .done ∨ y.state = .failed := by
    cases state : y.state <;> simp [Slot.nonFinal, state]
  simp only [State.failSlot, discarded, final, beq_iff_eq]

theorem slotlessFailure_eq (e : Entry) (c : Cause) : e.slotlessFailure c =
    .failed (match e.first with | .absolute k => some k | .earliest => none) c := by
  cases first : e.first <;> simp [Entry.slotlessFailure, FirstSector.absolute?, first]

theorem dropWaiting_closed_seek (u : State) :
    (if u.pos.waitingTarget.isSome then u.dropWaiting.updSession fun x => { x with seekOutstanding := false } else u) =
      if u.pos.waitingTarget = none then u
      else { u with
        pos := { u.pos with waitingTarget := none, request := none }
        session := u.session.map fun x => { x with seekOutstanding := false } } := by
  cases waiting : u.pos.waitingTarget with
  | none => rfl
  | some t =>
    simp only [State.dropWaiting, waiting, Option.isSome_some, if_true, reduceCtorEq, if_false]
    rfl

/-- Settles O55. -/
theorem operationResultsOnSlots : Obligations.OperationResultsOnSlots := by
  refine ⟨fun s o p tag e flight off slots owner tagged live kept going => ?_, fun s => ?_, fun s o r flight off => ?_,
    fun s o => ⟨fun none => ?_, fun r held => ?_⟩, fun s cause active => ⟨fun none => ?_, fun x open_ => ?_⟩⟩
  · intro t x judged
    have ends (r : OpResult) : s.endOperation r = t.endServedOp p tag o.sector r := by
      rw [endOperation_of_entry r flight off owner tagged live, kept, going]
      rfl
    have judge (y : Slot) : (t.setSlot o.sector y).judgeCompletion p tag = judged (t.setSlot o.sector y) :=
      judgeCompletion_of_some (live ▸ by cases p <;> rfl)
    refine ⟨?_, fun c last => ?_, fun c more => ?_, fun y open_ => ⟨fun first => ?_, fun second => ?_⟩,
      fun v => outcomeOf_eq v e⟩
    · exact (ends _).trans (judge _)
    · rw [ends, ← fail_of_last last, ← judge]
      rfl
    · rw [ends, ← fail_of_more more, ← judge]
      rfl
    · have rearm : t.mismatchRearm o.sector = t.setSlot o.sector { x with state := .armed } :=
        (mismatch_rearms (v := t) open_ o.sector).trans (if_pos first)
      have held : (t.setSlot o.sector { x with state := .armed }).session = some y := open_
      rw [ends, State.endServedOp, rearm, mismatchAct_eq, held]
      exact if_pos first
    · have rearm : t.mismatchRearm o.sector = t := (mismatch_rearms (v := t) open_ o.sector).trans (if_neg second)
      have held : t.session = some y := open_
      rw [ends, State.endServedOp, rearm, mismatchAct_eq, held]
      exact if_neg second
  · intro off head n
    have place : head = s.sessionHead := rfl
    refine ⟨fun r busy => endOperation_dropGate busy r, fun r idle => endOperation_of_none idle r, dropGate_of_off,
      fun o on flight => ?_, fun on idle => ⟨fun f k pass current => ?_, dropGate_of_nothing on idle⟩⟩
    · have drops := dropGate_of_op (off := off) rfl place (n := n) rfl on flight
      exact ⟨fun tears => drops.trans (if_pos tears), fun whole => drops.trans (if_neg whole)⟩
    · exact dropGate_of_pass (off := off) rfl place (n := n) rfl on idle pass current
  · intro t x ended mismatch
    have act (v : State) : v.mismatchAct = mismatch v := mismatchAct_eq v
    refine ⟨fun p tag e owner tagged live => ?_, fun owner => ?_⟩
    · intro cancelled
      refine ⟨fun discard => ?_, fun kept going => ?_⟩
      · rw [endOperation_of_entry r flight off owner tagged live, discard]
        cases r <;> first | rfl | exact act _
      · rw [endOperation_of_entry r flight off owner tagged live, kept, going]
        cases r <;> first | rfl | exact congrArg State.closeJudgement (act _)
    · have ends (r : OpResult) := endOperation_of_drive r flight off owner
      refine ⟨ends .done, fun c last => ?_, fun c more => ?_, fun y open_ => ?_⟩
      · rw [ends, ← fail_of_last last]
        exact if_pos last
      · rw [ends, ← fail_of_more more]
        exact if_neg more
      · rw [ends, ← act]
        exact congrArg State.mismatchAct (mismatch_rearms (v := t) open_ o.sector)
  · rw [State.reportDrive, none]
  · exact reportDrive_of_some o held
  · rw [State.failSession, none]
  · intro off discarded fails failed ends served ended told
    have opened : (({ s.dropGate with seq := { s.dropGate.seq with op := none, pass := none } } : State).updSession
        fun x => { x with failed := true, passDue := false }) = off := by
      simp only [State.updSession, dropGate_session, open_, Option.map_some]
      rfl
    have slots : off.mapSlots (off.failSlot cause active) = failed :=
      congrArg off.mapSlots (funext fun y => failSlot_eq off cause active y)
    have each (p : Port) (u : State) (e : Entry) : u.failEntry p e cause = ends p u e := by
      rw [State.failEntry, slotlessFailure_eq] <;> rfl
    have port (p : Port) (u : State) : ((u.ctx p).queue.filter fun e => e.state == .inSession).foldl
        (fun v e => v.failEntry p e cause) u = served p u := by
      simp only [each, beq_eq_decide]
      rfl
    have entries : failed.failEntries cause = ended := by
      simp only [State.failEntries, Port.both, List.foldl_cons, List.foldl_nil, port]
      rfl
    have reported : (if x.owner == .drive then ended.reportDrive (.failed (s.driveCause cause active)) else ended) =
        told := by
      have drive (y : Slot) : (y.owner == some .drive && y.state == .active) =
          decide (y.owner = some .drive ∧ y.state = .active) := by rw [Bool.decide_and, beq_eq_decide, beq_eq_decide]
      simp only [State.driveCause, drive, beq_iff_eq]
      rfl
    rw [State.failSession, open_]
    dsimp only
    rw [opened, slots, entries, reported, dropWaiting_closed_seek]

end Sys2Proof.Machine
end

section
/-! SUPPORT. Sessions: who is eligible and may join, arming, the close, and the arbiter's choice (R73 to R79, R85,
R91 to R93). -/

namespace Sys2Proof.Machine

/-! ### Eligibility, joining and arming -/

theorem eligible_iff (s : State) (p : Port) (e : Entry) : s.eligible p e = true ↔
    ∀ r, s.reservation = some r → r.holder = p ∨ r.mode = .write ∧ e.op ≠ .write := by
  unfold State.eligible State.holdsIn
  cases s.reservation with
  | none => simp
  | some r => cases p <;> cases holder : r.holder <;> cases mode : r.mode <;> simp [Port.other, holder, mode]

theorem canJoin_iff {s : State} {x : Session} (open_ : s.session = some x) (p : Port) (e : Entry) :
    s.canJoin p e = true ↔ e.state = .ready ∧ x.revolutions < 3 ∧ x.phase = .serving ∧ x.speedSuspended = false ∧
      x.positionSuspended = false ∧ x.failed = false ∧ x.owner = .station ∧ s.eligible p e = true ∧
      translate s.copy e.track = x.track ∧ e.head = x.head ∧
      ∀ i, i < e.count → (s.slot ((s.resolve e + i) % 20)).state = .empty := by
  simp [State.canJoin, open_, Session.takesJoiners, Session.suspended, requestSectors, and_assoc]

theorem judgeJoin_of_some {s : State} {p : Port} {tag : Byte} {e : Entry} {x : Session} (live : s.entry? p tag = some e)
    (open_ : s.session = some x) :
    s.judgeJoin p tag = if s.canJoin p e = true then (s.takeIn p tag x.track).armEntry p tag else s := by
  rw [State.judgeJoin, open_, live]

/-- Places set one after another, each to a value of its own. -/
theorem getElem?_foldl_set_each {α : Type} (l : List Nat) (f : Nat → α) (pool : List α) (i : Nat) :
    (l.foldl (fun pool k => pool.set k (f k)) pool)[i]? = if i ∈ l ∧ i < pool.length then some (f i) else pool[i]? := by
  induction l generalizing pool with
  | nil => simp
  | cons k l ih =>
    rw [List.foldl_cons, ih, List.length_set, List.getElem?_set]
    by_cases low : i < pool.length <;> by_cases rest : i ∈ l <;> by_cases same : k = i <;> simp_all [eq_comm]

theorem length_foldl_set_each {α : Type} (l : List Nat) (f : Nat → α) (pool : List α) :
    (l.foldl (fun pool k => pool.set k (f k)) pool).length = pool.length := by
  induction l generalizing pool with
  | nil => rfl
  | cons k l ih => rw [List.foldl_cons, ih, List.length_set]

/-- The slots of an armed entry (R76, R78). -/
def State.armedSlots (s : State) (p : Port) (tag : Byte) (e : Entry) : List Slot :=
  (requestSectors (s.resolve e) e.count).foldl (fun slots k => slots.set k
    ⟨armedState s.params.lead s.currentSector k, some (.port p), some tag, e.retry, none⟩) s.slots

theorem armEntry_eq {s : State} {p : Port} {tag : Byte} {e : Entry} (live : s.entry? p tag = some e) :
    s.armEntry p tag = { s.updEntry p tag fun e' => { e' with resolved := some (s.resolve e) } with
      slots := s.armedSlots p tag e } := by
  rw [State.armEntry, live]
  cases p <;> rfl

theorem mem_requestSectors (first count k : Nat) :
    k ∈ requestSectors first count ↔ ∃ i, i < count ∧ k = (first + i) % 20 := by
  simp [requestSectors, eq_comm]

/-! ### The passes over the queues, and the close -/

theorem judgeJoins_eq (s : State) :
    let judge (p : Port) (u : State) : State :=
      ((u.ctx p).queue.filter fun e => decide (e.state = .ready)).foldl (fun v e => v.judgeJoin p e.tag) u
    s.judgeJoins = judge .b (judge .a s) := by
  simp only [State.judgeJoins, State.tagsIn, List.foldl_map, beq_eq_decide]

theorem armCandidates_eq (s : State) :
    let arm (p : Port) (u : State) : State :=
      ((u.ctx p).queue.filter fun e => decide (e.state = .inSession ∧ e.discard = false ∧ e.resolved = none)).foldl
        (fun v e => v.armEntry p e.tag) u
    s.armCandidates = arm .b (arm .a s) := by
  have waits (e : Entry) : (e.state == .inSession && !e.discard && e.resolved.isNone) =
      decide (e.state = .inSession ∧ e.discard = false ∧ e.resolved = none) := by
    rw [Bool.eq_iff_iff]
    simp [and_assoc]
  simp only [State.armCandidates, Port.both, List.foldl_cons, List.foldl_nil, waits]

/-- The drive-owned work is armed at sector 0 (R92, R93). -/
theorem armDrive_eq (s : State) : s.armDrive = match s.driveReq with
    | none => s
    | some r => if r.kind = .formatPass then s else { s with
        slots := s.slots.set 0 ⟨if s.params.lead ≤ (20 - s.seq.current.getD 0) % 20 then .armed else .deferred,
          some .drive, none, 3, none⟩ } := by
  have either (asked : Option DriveRequest) (arm : DriveRequest → State) :
      (match asked with | some r => arm r | none => s) = match asked with | none => s | some r => arm r := by
    cases asked <;> rfl
  exact either s.driveReq fun r => if r.kind = .formatPass then s else s.armSlots .drive none 3 [0]

theorem closable_iff (s : State) (x : Session) : s.closable x = true ↔
    (∀ y ∈ s.slots, y.state = .empty) ∧ (∀ p, ∀ e ∈ (s.ctx p).queue, e.state ≠ .inSession) ∧
      (x.seekOutstanding = false ∨ s.pos.waitingTarget ≠ none) ∧ (x.owner = .drive → s.driveReq = none) := by
  have none_ : s.anyEntryIn .inSession = false ↔ ∀ p, ∀ e ∈ (s.ctx p).queue, e.state ≠ .inSession := by
    rw [← Bool.not_eq_true, anyEntryIn_iff]
    push Not
    rfl
  simp only [State.closable, Bool.and_eq_true, Bool.not_eq_true', none_, State.allSlotsEmpty, List.all_eq_true,
    Bool.or_eq_true, Option.isSome_iff_ne_none, Bool.and_eq_false_imp, beq_iff_eq, Option.isSome_eq_false_iff,
    Option.isNone_iff_eq_none, and_assoc]

theorem closeSession_eq (s : State) : s.closeSession = { s with
    session := none
    pos := if s.pos.waitingTarget = none then s.pos else { s.pos with waitingTarget := none, request := none } } := by
  rw [State.closeSession, State.dropWaiting]
  cases waiting : s.pos.waitingTarget <;> simp [State.updPos]

theorem closeJudgement_of_none {s : State} (closed : s.judgeJoins.session = none) :
    s.closeJudgement = s.judgeJoins := by
  rw [State.closeJudgement]
  simp only [closed]

theorem closeJudgement_of_some {s : State} {x : Session} (open_ : s.judgeJoins.session = some x) :
    s.closeJudgement = if s.judgeJoins.closable x = true then s.judgeJoins.closeSession else s.judgeJoins := by
  rw [State.closeJudgement]
  simp only [open_]

theorem rejudgeArmed_eq (s : State) : s.rejudgeArmed = { s with slots := s.slots.mapIdx fun k y =>
    if y.state = .armed then
      { y with state := if s.params.lead ≤ (k + 20 - s.seq.current.getD 0) % 20 then .armed else .deferred }
    else y } := by
  simp only [State.rejudgeArmed, beq_iff_eq]
  rfl

theorem updSession_of_some {s : State} {x : Session} (open_ : s.session = some x) (f : Session → Session) :
    s.updSession f = { s with session := some (f x) } := by
  rw [State.updSession, open_]
  rfl

theorem allSlotsEmpty_eq (s : State) : s.allSlotsEmpty = s.slots.all fun y => decide (y.state = .empty) := by
  simp only [State.allSlotsEmpty, beq_eq_decide]

theorem armingPass_eq {s : State} {x : Session} (open_ : s.session = some x) : s.armingPass =
    let serves : State := { s with session := some { x with phase := .serving } }
    let armed := if x.owner = .drive then serves.armDrive else serves.armCandidates.judgeJoins
    if armed.slots.all fun y => decide (y.state = .empty) then armed.closeJudgement else armed := by
  rw [State.armingPass, open_]
  dsimp only
  rw [updSession_of_some open_]
  simp only [beq_iff_eq, allSlotsEmpty_eq]

/-- The suspension reasons that still stand (R85). -/
def State.stillSuspended (s : State) (x : Session) : Session :=
  { x with
    speedSuspended := x.speedSuspended && !decide (s.spindle.state = .atSpeed)
    positionSuspended := x.positionSuspended && !decide (x.seekOutstanding = false ∧ s.pos.state = .onTrack) }

theorem positionRestored_eq (s : State) (x : Session) :
    s.positionRestored x = decide (x.seekOutstanding = false ∧ s.pos.state = .onTrack) := by
  rw [Bool.eq_iff_iff]
  simp [State.positionRestored]

theorem speedRestored_eq (s : State) : s.speedRestored = decide (s.spindle.state = .atSpeed) :=
  beq_eq_decide ..

theorem resumeSession_eq {s : State} {x y : Session} (open_ : s.session = some x) (still : y = s.stillSuspended x) :
    s.resumeSession =
      if (x.speedSuspended || x.positionSuspended) && !(y.speedSuspended || y.positionSuspended) &&
        decide (x.phase = .serving) then ({ s with session := some y } : State).rejudgeArmed.closeJudgement
      else { s with session := some y } := by
  subst still
  rw [State.resumeSession, open_]
  simp only [positionRestored_eq, speedRestored_eq, Session.suspended, State.stillSuspended, beq_eq_decide] <;> rfl

theorem sessionSeekDone_eq {s : State} {x : Session} (open_ : s.session = some x) : s.sessionSeekDone =
    let answered : State := { s with session := some { x with seekOutstanding := false } }
    if x.failed then answered.closeJudgement else if x.phase = .positioning then answered.armingPass else answered := by
  rw [State.sessionSeekDone, open_]
  dsimp only
  rw [updSession_of_some open_]
  cases x.phase <;> rfl

theorem sessionSeekAbandoned_eq {s : State} {x : Session} (open_ : s.session = some x) : s.sessionSeekAbandoned =
    let answered : State := { s with session := some { x with seekOutstanding := false } }
    if x.failed then answered.closeJudgement else answered := by
  rw [State.sessionSeekAbandoned, open_]
  dsimp only
  rw [updSession_of_some open_]

theorem closed_session {s : State} (closed : s.session = none) :
    s.armingPass = s ∧ s.resumeSession = s ∧ s.sessionSeekDone = s ∧ s.sessionSeekAbandoned = s := by
  rw [State.armingPass, State.resumeSession, State.sessionSeekDone, State.sessionSeekAbandoned, closed]
  exact ⟨rfl, rfl, rfl, rfl⟩

theorem discardWaiting_eq (s : State) : s.discardWaiting = if s.pos.waitingTarget = none then s else
    ({ s with pos := { s.pos with waitingTarget := none, request := none } } : State).sessionSeekAbandoned := by
  rw [State.discardWaiting, State.dropWaiting]
  cases waiting : s.pos.waitingTarget <;> simp [State.updPos]

/-! ### The choice -/

theorem turnPort_of_candidate {s : State} {p : Port} {e : Entry} (found : s.candidate? p = some e)
    (alone : s.candidate? p.other = none ∨ s.turn = p.other) : s.turnPort = some p := by
  cases p <;> rcases alone with alone | alone <;> simp only [Port.other] at alone <;>
    simp only [State.turnPort, found, alone, Port.other] <;> split <;> simp_all

theorem standsAt_iff (s : State) (track : Nat) : s.standsAt track = true ↔
    s.pos.state = .onTrack ∧ s.pos.confidence = .known ∧ s.pos.counter = (track : Int) := by
  simp [State.standsAt, and_assoc]

theorem positionSession_eq {s v : State} (heads : v.pos = s.pos) (track : Nat) : v.positionSession track =
    if s.pos.state = .onTrack ∧ s.pos.confidence = .known ∧ s.pos.counter = (track : Int) then v.armingPass
    else (v.updSession fun x => { x with seekOutstanding := true }).seekRequest track := by
  rw [State.positionSession]
  simp only [standsAt_iff, heads]

theorem newSession_eq (s : State) (track head : Nat) (owner : OwnerKind) : s.newSession track head owner =
    { s with session := some ⟨track, head, owner, .positioning, decide (s.spindle.state ≠ .atSpeed), false, 0, 0,
      false, false, false⟩ } := by
  rw [State.newSession, beq_eq_decide, decide_not]

theorem exec_arbiterChoice (s : State) :
    exec .arbiterChoice s = .next (if s.choiceDue then s.choose.finish else s) := rfl

theorem choiceDue_iff {s : State} (closed : s.session = none)
    (still : s.pos.state = .onTrack ∨ s.pos.state = .unloaded) :
    s.choiceDue = (s.driveReq.isSome || s.turnPort.isSome) := by
  have may : s.mayChoose = true := by simpa [State.mayChoose, closed] using still
  rw [State.choiceDue, may, Bool.true_and]

theorem resumeDue_iff {s : State} {x : Session} (open_ : s.session = some x) : s.resumeDue = true ↔
    x.speedSuspended = true ∧ s.spindle.state = .atSpeed ∨
      x.positionSuspended = true ∧ x.seekOutstanding = false ∧ s.pos.state = .onTrack := by
  simp only [State.resumeDue, open_, positionRestored_eq, speedRestored_eq, Bool.or_eq_true, Bool.and_eq_true,
    decide_eq_true_eq]

/-! ### The statement -/

/-- The arbiter's choice (R73, R74). -/
theorem exec_arbiterChoice_eq (s : State) (closed : s.session = none)
    (still : s.pos.state = .onTrack ∨ s.pos.state = .unloaded) :
    (∀ r, s.driveReq = some r → exec .arbiterChoice s = .next
      ((s.newSession r.track r.head .drive).positionSession r.track).finish) ∧
    (s.driveReq = none →
      (s.candidate? .a = none → s.candidate? .b = none → exec .arbiterChoice s = .next s) ∧
      (∀ p e, s.candidate? p = some e → s.candidate? p.other = none ∨ s.turn = p.other →
        exec .arbiterChoice s = .next (s.openStation p e).finish)) := by
  have due := choiceDue_iff closed still
  refine ⟨fun r asked => ?_, fun none => ⟨fun noneA noneB => ?_, fun p e found alone => ?_⟩⟩
  · rw [exec_arbiterChoice, due, State.choose, asked]
    rfl
  · have nobody : s.turnPort = Option.none := by rw [State.turnPort, noneA, noneB]
    rw [exec_arbiterChoice, due, none, nobody]
    rfl
  · have turn := turnPort_of_candidate found alone
    rw [exec_arbiterChoice, due, State.choose, none, turn]
    simp only [found]
    rfl

/-- Settles O56. -/
theorem sessionsOpenAndGoOn : Obligations.SessionsOpenAndGoOn := by
  refine ⟨fun s => ?_, eligible_iff, fun s p tag e live => ?_, fun s => ?_⟩
  · intro opens sought candidate
    have opened (u : State) (same : u.spindle = s.spindle) (track head : Nat) (owner : OwnerKind) :
        u.newSession track head owner = opens u track head owner := by
      refine (newSession_eq u track head owner).trans ?_
      cases u
      cases same
      rfl
    have seeks (v : State) (heads : v.pos = s.pos) (track : Nat) : v.positionSession track = sought v track :=
      positionSession_eq heads track
    refine ⟨fun closed still => ?_, fun x open_ => ?_, fun p e found => ?_,
      fun x open_ due owner phase speed place going pass op current atSpeed onTrack known high writable => ?_⟩
    · obtain ⟨drive, stations⟩ := exec_arbiterChoice_eq s closed still
      refine ⟨fun r asked => ?_, fun none => ?_⟩
      · rw [drive r asked, opened s rfl, seeks]
        rfl
      · obtain ⟨nobody, candidates⟩ := stations none
        refine ⟨nobody, fun p e found alone => ?_⟩
        intro track
        rw [candidates p e found alone]
        refine congrArg (fun u => Host.Outcome.next (State.finish u)) ?_
        refine Eq.trans ?_ (seeks _ (by exact (State.updCtx_pos _ _ _).trans rfl) track)
        rw [← opened { s with turn := p } rfl track e.head .station]
        rfl
    · intro speedBack placeBack y v
      have due : s.resumeDue = true ↔ speedBack ∨ placeBack := resumeDue_iff open_
      have resumes := resumeSession_eq (y := y) open_ rfl
      have runs (back : speedBack ∨ placeBack) : exec .sessionResume s = .next s.resumeSession.finish :=
        next_of_due (due.2 back) rfl
      have suspended (back : speedBack ∨ placeBack) : (x.speedSuspended || x.positionSuspended) = true := by
        rw [Bool.or_eq_true]
        exact back.imp And.left And.left
      refine ⟨fun noSpeed noPlace => congrArg Host.Outcome.next (if_neg (due.not.2 (not_or.2 ⟨noSpeed, noPlace⟩))),
        fun back => ⟨fun stands => ?_, fun speed place phase => ?_⟩⟩
      · have stays : ((x.speedSuspended || x.positionSuspended) && !(y.speedSuspended || y.positionSuspended) &&
            decide (x.phase = .serving)) = false := by
          rcases stands with h | h | h <;> simp [h]
        rw [runs back, resumes, stays]
        rfl
      · rw [runs back, resumes, suspended back, speed, place, decide_eq_true phase]
        rfl
    · have discarded : s.discarded? p = some e := found
      change Host.Outcome.next _ = _
      rw [discarded]
    · have serves := (serves_iff x).2 ⟨phase, speed, place, going⟩
      have law := (gateLaw_iff s).2 ⟨atSpeed, onTrack, known, high, writable⟩
      refine next_of_due ?_ ?_
      · simp only [State.passStartDue, open_, due, serves, owner, pass, op, current, law]
        rfl
      · rw [updSession_of_some open_]
  · intro c first joins
    have resolved : s.resolve e = first := rfl
    have sectors (k : Nat) : k ∈ requestSectors first e.count ↔ ∃ i, i < e.count ∧ k = (first + i) % 20 :=
      mem_requestSectors first e.count k
    refine ⟨fun closed => ?_, fun x open_ => ?_, s.armedSlots p tag e, armEntry_eq live, length_foldl_set_each _ _ _,
      fun k mine low => ?_, fun k others => ?_⟩
    · rw [State.judgeJoin, closed]
    · have may : s.canJoin p e = true ↔ joins x := canJoin_iff open_ p e
      have judged := judgeJoin_of_some live open_
      exact ⟨fun h => judged.trans (if_pos (may.2 h)), fun h => judged.trans (if_neg (may.not.2 h))⟩
    · refine (getElem?_foldl_set_each _ _ _ _).trans (if_pos ⟨?_, low⟩)
      rw [resolved]
      exact (sectors k).2 mine
    · refine (getElem?_foldl_set_each _ _ _ _).trans (if_neg fun h => ?_)
      obtain ⟨i, low, place⟩ := (sectors k).1 h.1
      exact others i low place
  · intro c judge arm judged
    refine ⟨judgeJoins_eq s, rejudgeArmed_eq s, closeJudgement_of_none, fun x open_ => ?_, closed_session,
      fun x open_ => ?_, fun none => (discardWaiting_eq s).trans (if_pos none),
      fun held => (discardWaiting_eq s).trans (if_neg held)⟩
    · intro closes
      have may : judged.closable x = true ↔ closes := closable_iff judged x
      have closed := closeJudgement_of_some open_
      rw [closeSession_eq] at closed
      exact ⟨fun h => closed.trans (if_pos (may.2 h)), fun h => closed.trans (if_neg (may.not.2 h))⟩
    · intro serves armed y v answered
      have arms : (if x.owner = .drive then serves.armDrive else serves.armCandidates.judgeJoins) = armed := by
        rw [armCandidates_eq, armDrive_eq] <;> rfl
      refine ⟨?_, resumeSession_eq open_ rfl, sessionSeekDone_eq open_, sessionSeekAbandoned_eq open_⟩
      rw [armingPass_eq open_, ← arms]

end Sys2Proof.Machine
end

section
/-! SUPPORT. The mount's steps, the answers it waits for, and its end (R97 to R103). -/

namespace Sys2Proof.Machine

/-- Entering SPINNING (R98, R113). -/
theorem enterSpinning_eq (s : State) : s.enterSpinning = ({ s with custody := { s.custody with
    step := some .spinning, supplyHold := !decide (s.supply.state = .high) } } : State).spinRequest := by
  rw [State.enterSpinning, State.supplyHigh, beq_eq_decide]
  rfl

theorem mountsAt_eq (s : State) (k : MountStep) : s.mountsAt k =
    decide (s.custody.state = .mounting ∧ s.custody.step = some k ∧ s.custody.supplyHold = false) := by
  rw [Bool.eq_iff_iff, mountsAt_iff, decide_eq_true_eq]

theorem latching_iff (s : State) : (s.custody.state == .mounting && s.custody.step == some .latching) = true ↔
    s.custody.state = .mounting ∧ s.custody.step = some .latching := by simp

/-- A recalibration that custody waits for at step LOADING (R99, R101). -/
theorem beginRecalibration_custodySeen {s : State} (mounts : s.mountsAt .loading = true) :
    s.beginRecalibration.custodyRecalSeen =
      ({ s with custody := { s.custody with step := some .recalibrating } } : State).beginRecalibration := by
  have commutes (u : Custody) : ({ s with custody := u } : State).beginRecalibration =
      { s.beginRecalibration with custody := u } := by
    simp only [State.beginRecalibration, State.updPos]
    split
    · exact startMove_of_custody (s.updPos fun x => { x with state := .recalibrating }) u _
    · rfl
  have custody : s.beginRecalibration.custody = s.custody := by
    unfold State.beginRecalibration
    dsimp only
    split
    · rw [startMove_frame]
      rfl
    · rfl
  have still : s.beginRecalibration.mountsAt .loading = true := by rwa [State.mountsAt, custody]
  refine Eq.trans (if_pos still) (Eq.trans ?_ (commutes _).symm)
  rw [State.updCustody, custody]

theorem latchConfirmed_eq (s : State) (w : Bool) (h : Custody) (held : h = { s.custody with
      latched := true, latchTimer := none, protect := some (if w then .isProtected else .writable) }) :
    (s.custody.forcedRejection = none → s.latchConfirmed w = ({ s with custody := { h with
      step := some .spinning, supplyHold := !decide (s.supply.state = .high) } } : State).spinRequest) ∧
    ∀ r, s.custody.forcedRejection = some r → s.latchConfirmed w = ({ s with custody := h } : State).rejectMount r := by
  subst held
  unfold State.latchConfirmed
  dsimp only
  split
  next r forced =>
    refine ⟨fun free => (nomatch forced.symm.trans free), fun r' forced' => ?_⟩
    cases forced.symm.trans forced'
    rfl
  next free =>
    refine ⟨fun _ => ?_, fun _ forced => (nomatch free.symm.trans forced)⟩
    exact enterSpinning_eq (s.updCustody fun u => { u with
      latched := true, latchTimer := none, protect := some (if w then .isProtected else .writable) })

theorem exec_mountStepLoading (s : State) (due : s.loadingDue = true) : exec .mountStepLoading s =
    .next ((s.updCustody fun u => { u with step := some .loading }).recalibrateRequest).finish := next_of_due due rfl

theorem mountComplete_eq (s : State) (copy : Option MediaRecord) :
    let t : State := ((({ s with
      copy := copy
      custody := { s.custody with
        state := if copy = none then .blank else .mounted, step := none
        generation := if s.custody.generation = 255 then 1 else s.custody.generation + 1 } } :
      State).updBoth fun x => { x with lockHeld := false }).postBoth
        (if copy = none then .mediumBlank else .mediumMounted))
    let u : State := { t with custody := { t.custody with
      lastMount := some (if copy = none then .blank else .mounted) } }
    s.mountComplete copy = if s.custody.deferredEject then
      ({ u with custody := { u.custody with deferredEject := false } } : State).shortPress else u := by
  cases copy <;> rfl

theorem recordReadJudgement_of_reading {s : State} (reading : s.mountsAt .readingRecord = true) (o : DriveOutcome) :
    (∀ r, s.custody.forcedRejection = some r → s.recordReadJudgement o = s.rejectMount r) ∧
    (s.custody.forcedRejection = none → s.recordReadJudgement o = match o with
      | .done => s.mountComplete
          (if validRecord (s.bufferBytes 16) then some (decodeRecord (s.bufferBytes 16)) else none)
      | .failed .speed => s.rejectMount .spindle
      | .failed .position => if s.pos.state = .retracting ∨ s.pos.state = .unloaded then s.rejectMount .position
          else s.mountComplete none
      | .failed .supply => s
      | .failed _ => s.mountComplete none) := by
  have judged : s.recordReadJudgement o = _ := if_pos reading
  have recalFailed : s.readRecalFailed = true ↔ s.pos.state = .retracting ∨ s.pos.state = .unloaded := by
    simp [State.readRecalFailed]
  refine ⟨fun r forced => ?_, fun free => ?_⟩
  · rw [judged, forced]
  · rw [judged, free]
    simp only [recalFailed] <;> rfl

/-- Settles O57. -/
theorem insertionAndMountSteps : Obligations.InsertionAndMountSteps := by
  refine ⟨fun s => ?_, fun s => ?_⟩
  · intro c absent latching
    have latches : (s.custody.state == .mounting && s.custody.step == some .latching) = true ↔ latching :=
      latching_iff s
    refine ⟨fun m wf => ⟨fun here => ?_, fun gone empty => ?_, fun gone other => ?_⟩, fun withdrawn => ?_,
      fun inserted releasing jammed other => ?_, fun inserted x timer late => ?_, fun w => ?_,
      fun latch x timer late => ?_,
      fun r => rfl, fun x timer late => next_of_due (expired_of timer late) rfl,
      fun mounting spinning hold atSpeed standby => ?_⟩
    · exact (if_pos (c := (Instr.presentSensorActive m).wf) wf).trans (congrArg Host.Outcome.next (if_pos here))
    · refine (if_pos (c := (Instr.presentSensorActive m).wf) wf).trans (congrArg Host.Outcome.next ?_)
      exact (if_neg (Bool.not_eq_true _ ▸ gone)).trans (if_pos empty)
    · refine (if_pos (c := (Instr.presentSensorActive m).wf) wf).trans (congrArg Host.Outcome.next ?_)
      exact (if_neg (Bool.not_eq_true _ ▸ gone)).trans (if_neg other)
    · change Host.Outcome.next _ = _
      rcases withdrawn with inserted | ⟨mounting, latch⟩
      · rw [show s.custody.state = .inserted from inserted]
        rfl
      · rw [show s.custody.state = .mounting from mounting, show s.custody.step = some .latching from latch]
        rfl
    · refine congrArg Host.Outcome.next ?_
      cases state : s.custody.state with
      | inserted => exact absurd state inserted
      | releasing => exact absurd state releasing
      | jammed => exact absurd state jammed
      | mounting => exact if_neg fun step => other ⟨state, step⟩
      | empty => rfl
      | mounted => rfl
      | blank => rfl
      | ejectPending => rfl
      | unmounting => rfl
    · refine next_of_due ?_ rfl
      rw [show s.custody.state = .inserted from inserted, expired_of timer late]
      rfl
    · intro read held
      have confirmed := latchConfirmed_eq ({ s with pins := read } : State) w held rfl
      exact ⟨fun latch free => next_of_due (latches.2 latch) (congrArg State.finish (confirmed.1 free)),
        fun latch r forced => next_of_due (latches.2 latch) (congrArg State.finish (confirmed.2 r forced)),
        fun other => congrArg Host.Outcome.next (if_neg (latches.not.2 other))⟩
    · refine next_of_due ?_ rfl
      rw [latches.2 latch, expired_of timer late]
      rfl
    · have due (still : (s.pos.state == .unloaded || s.pos.state == .onTrack) = true) : s.loadingDue = true := by
        simp only [State.loadingDue, State.spindleReady, (mountsAt_iff s .spinning).2 ⟨mounting, spinning, hold⟩,
          atSpeed, standby, still]
        rfl
      refine ⟨fun parked => ?_, fun onTrack => ?_⟩
      · rw [exec_mountStepLoading s (due (by rw [parked]; rfl))]
        refine congrArg (fun u => Host.Outcome.next (State.finish u)) ?_
        simp only [State.recalibrateRequest, State.updCustody, parked, atSpeed, beq_self_eq_true, if_true]
        rfl
      · rw [exec_mountStepLoading s (due (by rw [onTrack]; rfl))]
        refine congrArg (fun u => Host.Outcome.next (State.finish u)) ?_
        simp only [State.recalibrateRequest, State.updCustody, onTrack]
        exact beginRecalibration_custodySeen ((mountsAt_iff _ _).2 ⟨mounting, rfl, hold⟩)
  · intro c mounts raised read
    have waits (k : MountStep) : s.mountsAt k = mounts k := mountsAt_eq s k
    refine ⟨enterSpinning_eq s, ?_, ?_, fun o => ⟨fun other => ?_, fun reading => ?_⟩, fun copy => ?_⟩
    · rw [State.custodyRecalFailed, waits, waits]
    · rw [State.custodyRecalDone, waits]
      rfl
    · exact if_neg (Bool.not_eq_true _ ▸ (waits .readingRecord).trans other)
    · exact recordReadJudgement_of_reading ((waits .readingRecord).trans reading) o
    · have complete := mountComplete_eq s copy
      exact ⟨fun kept => complete.trans (if_neg (Bool.not_eq_true _ ▸ kept)), fun deferred =>
        complete.trans (if_pos deferred)⟩

end Sys2Proof.Machine
end


section
/-! SUPPORT. Leaving: the drain, the stop request, the eject pulses and the release (R108 to R112). -/

namespace Sys2Proof.Machine

theorem drainDue_of {s : State} (pending : s.custody.state = .ejectPending) (closed : s.session = none)
    (served : ∀ p, ∀ e ∈ (s.ctx p).queue, e.state ≠ .ready ∧ e.state ≠ .inSession)
    (ended : ∀ p m, (s.ctx p).maint = some m → m.outcome ≠ none) : s.drainDue = true := by
  have none_ (st : EntryState) (away : ∀ p, ∀ e ∈ (s.ctx p).queue, e.state ≠ st) : s.anyEntryIn st = false := by
    rw [← Bool.not_eq_true, anyEntryIn_iff]
    rintro ⟨p, e, mem, state⟩
    exact away p e mem state
  have idle : s.anyMaintRunning = false := by
    rw [← Bool.not_eq_true, anyMaintRunning_iff]
    rintro ⟨p, m, held, running⟩
    exact ended p m held running
  rw [State.drainDue, State.drained, pending, closed, idle, none_ .ready fun p e mem => (served p e mem).1,
    none_ .inSession fun p e mem => (served p e mem).2]
  rfl

theorem ejectLaw_iff (s : State) : s.ejectLaw = true ↔ s.pos.state = .unloaded ∧ s.spindle.state = .stopped := by
  simp [State.ejectLaw]

theorem stopDue_of {s : State} (unmounting : s.custody.state = .unmounting) (unsent : s.custody.stopSent = false)
    (parked : s.pos.state = .unloaded) : s.stopDue = true := by
  rw [State.stopDue, unmounting, unsent, parked]
  rfl

/-- A stop request to a spindle that turns (R27): nothing in an unmount asks for speed again. -/
theorem enterBraking_of_unmounting {s : State} (unmounting : s.custody.state = .unmounting) :
    s.enterBraking = { s with
      spindle := { s.spindle with
        state := .braking, duty := 0, firstIndexTimer := none, lockTimer := none, absenceTimer := none,
        regainTimer := none, quietTimer := some ⟨s.time, 400000⟩, faultPending := false, standbyStop := false }
      seq := { s.seq with current := none } } := by
  have waits : s.waitsForSpeed = false := by rw [State.waitsForSpeed, unmounting]; rfl
  have keeps : (s.spindle.restartFlag || (s.waitsForSpeed && decide (s.supply.state = .high))) =
      s.spindle.restartFlag := by rw [waits, Bool.false_and, Bool.or_false]
  rw [enterBraking_eq, keeps]

theorem exec_releaseAttemptStart {s t : State}
    (attempt : (if s.releasingDue then s.newAttempt else s) = t) :
    exec .releaseAttemptStart s = .next (if t.firstPulseDue then t.ejectPulse else t) := by
  rw [← attempt]
  rfl

theorem firstPulseDue_eq {s : State} (releasing : s.custody.state = .releasing) (due : s.custody.attemptDue = true)
    (parked : s.pos.state = .unloaded) (stopped : s.spindle.state = .stopped) :
    s.firstPulseDue = decide (s.supply.state = .high) := by
  rw [State.firstPulseDue, releasing, due, (ejectLaw_iff s).2 ⟨parked, stopped⟩, State.supplyHigh, beq_eq_decide]
  rfl

/-- Settles O58. -/
theorem unmountAndRelease : Obligations.UnmountAndRelease := by
  intro s c pulsed attempt
  refine ⟨fun pending closed served ended => next_of_due (drainDue_of pending closed served ended) rfl,
    fun unmounting unsent parked => ?_, fun unmounting sent parked stopped => ?_,
    fun releasing due parked stopped high => ?_, fun x timer late => next_of_due (expired_of timer late) rfl,
    fun releasing x timer late => ?_, fun leaves => ?_⟩
  · intro told
    have due := stopDue_of unmounting unsent parked
    refine ⟨fun turns => next_of_due due (congrArg State.finish ?_), fun still =>
      next_of_due due (congrArg State.finish ?_)⟩
    · have brakes : told.enterBraking = _ := enterBraking_of_unmounting (s := told) unmounting
      refine Eq.trans ?_ brakes
      simp only [State.stopRequest, State.updCustody]
      rcases turns with h | h | h <;> simp only [h] <;> rfl
    · simp only [State.stopRequest, State.updCustody]
      rcases still with h | h | h <;> simp only [h] <;> rfl
  · have releasing : s.releasingDue = true := by
      rw [State.releasingDue, show s.custody.state = .unmounting from unmounting,
        show s.custody.stopSent = true from sent, (ejectLaw_iff s).2 ⟨parked, stopped⟩]
      rfl
    rw [exec_releaseAttemptStart (if_pos releasing), firstPulseDue_eq (s := s.newAttempt) rfl rfl parked stopped]
    simp only [decide_eq_true_eq]
    rfl
  · have away : s.releasingDue ≠ true := by
      rw [State.releasingDue, show s.custody.state = .releasing from releasing]
      exact Bool.false_ne_true
    rw [exec_releaseAttemptStart (if_neg away), firstPulseDue_eq releasing due parked stopped, decide_eq_true high]
    rfl
  · have due : (s.custody.state == .releasing && expired s.custody.releaseTimer s.time) = true := by
      rw [show s.custody.state = .releasing from releasing, expired_of timer late]
      rfl
    refine ⟨fun twice => next_of_due due (if_pos twice), fun once high parked stopped =>
      next_of_due due ((if_neg (Nat.not_le.2 once)).trans (if_pos ?_))⟩
    rw [(supplyHigh_iff s).2 high, (ejectLaw_iff s).2 ⟨parked, stopped⟩]
    rfl
  · intro empty
    have runs : exec .presentSensorInactive s =
        .next ({ s with pins := { s.pins with present := false } } : State).completeRelease.finish := by
      change Host.Outcome.next _ = _
      rcases leaves with state | state <;> rw [show s.custody.state = _ from state]
    refine ⟨fun reject => ?_, fun other => ?_⟩ <;> rw [runs] <;>
      refine congrArg (fun u => Host.Outcome.next (State.finish u)) ?_
    · rw [State.completeRelease]
      dsimp only
      rw [if_pos reject]
      rfl
    · rw [State.completeRelease]
      dsimp only
      rw [if_neg other]
      rfl

end Sys2Proof.Machine
end


section
/-! SUPPORT. The panel (R105 to R107), by custody, and whom a refused press asks. -/

namespace Sys2Proof.Machine

theorem pressRefused_iff (s : State) : s.pressRefused = true ↔
    (∃ p, (s.ctx p).lockHeld = true) ∨ ∃ r, s.reservation = some r ∧ r.mode = .exclusive := by
  have ports (P : Port → Prop) : (∃ p, P p) ↔ P .a ∨ P .b :=
    ⟨fun ⟨p, h⟩ => by cases p <;> simp [h], fun h => h.elim (⟨_, ·⟩) (⟨_, ·⟩)⟩
  have exclusive : (s.holdsIn .a .exclusive || s.holdsIn .b .exclusive) = true ↔
      ∃ r, s.reservation = some r ∧ r.mode = .exclusive := by
    rw [Bool.or_eq_true, holdsIn_eq_true, holdsIn_eq_true, ← exists_or]
    refine exists_congr fun r => ⟨fun h => h.elim (fun h => ⟨h.1, h.2.2⟩) fun h => ⟨h.1, h.2.2⟩, fun h => ?_⟩
    cases holder : r.holder <;> simp [h]
  rw [← exclusive, ports]
  simp only [State.pressRefused, Bool.or_eq_true, or_assoc]
  rfl

theorem shortPress_of_low {s : State} (low : s.supply.state ≠ .high) : s.shortPress = s ∧ s.longPress = s := by
  have off : (!s.supplyHigh) = true := by simpa [State.supplyHigh] using low
  exact ⟨if_pos off, if_pos off⟩

theorem longPress_of_high {s : State} (high : s.supplyHigh = true) :
    s.longPress = match s.custody.state with
      | .mounted => s.forcedEject
      | .blank => s.forcedEject
      | .ejectPending => s.forcedEject
      | .mounting => s.forcedMountRejection
      | .jammed => s.newAttempt
      | _ => s := by
  rw [State.longPress, high] <;> rfl

theorem shortPress_of_high {s : State} (high : s.supplyHigh = true) :
    s.shortPress = match s.custody.state with
      | .mounted => if s.pressRefused then s.refusePress else s.enterEjectPending .panel
      | .blank => if s.pressRefused then s.refusePress else s.enterEjectPending .panel
      | .mounting => if s.pressRefused then s.refusePress
          else s.updCustody fun u => { u with deferredEject := true }
      | .jammed => s.newAttempt
      | _ => s := by
  rw [State.shortPress, high] <;> rfl

/-- A cartridge that is held (R106). -/
theorem shortPress_of_ready {s : State} (high : s.supplyHigh = true)
    (ready : s.custody.state = .mounted ∨ s.custody.state = .blank) :
    s.shortPress = if s.pressRefused then s.refusePress else s.enterEjectPending .panel := by
  rw [shortPress_of_high high]
  rcases ready with state | state <;> rw [state]

theorem shortPress_of_mounting {s : State} (high : s.supplyHigh = true) (mounting : s.custody.state = .mounting) :
    s.shortPress = if s.pressRefused then s.refusePress
      else s.updCustody fun u => { u with deferredEject := true } := by
  rw [shortPress_of_high high, mounting]

theorem enterEjectPending_eq (s : State) (c : EjectCause) : s.enterEjectPending c =
    let pending : State := { s with custody := { s.custody with state := .ejectPending, ejectCause := c } }
    if s.anyEntryIn .ready then pending.spinRequest else pending := rfl

theorem holds_iff (s : State) (p : Port) : s.holds p = true ↔ ∃ r, s.reservation = some r ∧ r.holder = p := by
  unfold State.holds
  cases s.reservation <;> simp

theorem askPort_eq (s : State) (p : Port) : s.askPort p = match (s.ctx p).lockHeld, s.holds p with
    | true, true => s.post p (.ejectAsked .both)
    | true, false => s.post p (.ejectAsked .lock)
    | false, true => s.post p (.ejectAsked .reservation)
    | false, false => s := by
  unfold State.askPort State.askedFor
  cases (s.ctx p).lockHeld <;> cases s.holds p <;> rfl

theorem freeReservation_of_some {s : State} {r : Reservation} (held : s.reservation = some r) (b : NoticeBody) :
    s.freeReservation (some b) = ((({ s with reservation := none } : State).post r.holder b).post r.holder.other
      .reservationFreed).judgeJoins := by
  rw [State.freeReservation, held]
  rfl

/-- Settles O59. -/
theorem panelAndReservationTimer : Obligations.PanelAndReservationTimer := by
  refine ⟨fun s => ⟨fun down => congrArg Host.Outcome.next (if_pos down), fun up =>
    congrArg Host.Outcome.next (if_neg (Bool.not_eq_true _ ▸ up)), ?_,
    fun x timer late => next_of_due (expired_of timer late) rfl,
    fun x timer late => next_of_due (expired_of timer late) rfl, shortPress_of_low, fun high => ?_,
    fun r x held timer late => ?_⟩, fun s => ?_⟩
  · intro up
    refine ⟨fun none => congrArg Host.Outcome.next (if_neg ?_), fun runs => congrArg Host.Outcome.next (if_pos ?_)⟩
    · rw [none]
      exact Bool.false_ne_true
    · exact Option.isSome_iff_ne_none.2 runs
  · intro refused pending retried broken swept
    have supply := (supplyHigh_iff s).2 high
    have refuses : s.pressRefused = true ↔ refused := pressRefused_iff s
    have ready := shortPress_of_ready (s := s) supply
    have mounting := shortPress_of_mounting (s := s) supply
    have long := longPress_of_high supply
    have short := shortPress_of_high supply
    refine ⟨fun state free => (ready state).trans (if_neg (refuses.not.2 free)), fun state held => ?_,
      fun state free => (mounting state).trans (if_neg (refuses.not.2 free)), fun state => ?_, fun state => ?_,
      fun state => ?_, fun state => ?_, fun state => ?_⟩
    · rcases or_assoc.2 state with state | state
      · exact (ready state).trans (if_pos (refuses.2 held))
      · exact (mounting state).trans (if_pos (refuses.2 held))
    · rw [short, long, state]
      exact ⟨rfl, rfl⟩
    · rw [short, long]
      rcases state with state | state | state | state <;> simp only [state, and_self]
    · rw [short]
      simp only [state]
    · have forced : s.longPress = s.forcedEject := by
        rw [long]
        rcases state with state | state | state <;> rw [state]
      exact forced.trans (enterEjectPending_eq swept .forced)
    · have forced : s.longPress = s.forcedMountRejection := by
        rw [long]
        simp only [state]
      refine ⟨fun step => ?_, fun step => ?_, fun step => ?_, fun step => ?_⟩
      · rw [forced, State.forcedMountRejection, step]
        rfl
      · rw [forced, State.forcedMountRejection, step]
        rfl
      · rw [forced, State.forcedMountRejection, step]
        rfl
      · rw [forced, State.forcedMountRejection]
        rcases step with step | step <;> rw [step] <;> rfl
  · refine next_of_due ?_ (congrArg State.finish (freeReservation_of_some held _))
    rw [State.reservationExpiryDue, held]
    exact expired_of timer late
  · refine ⟨Iff.rfl, ?_, ?_, fun p => ?_, ?_, ?_, ?_, ?_, fun none => ?_, fun r held => freeReservation_of_some held _,
      fun p => ?_⟩
    · rw [State.attentionLamp, Bool.or_eq_true, Option.isSome_iff_ne_none, beq_iff_eq]
    · simp [State.busyLamp, Option.isSome_iff_ne_none]
    · simp [State.attentionLine]
    · simp [State.headLoadOn]
    · exact Option.isSome_iff_ne_none
    · exact Option.isSome_iff_ne_none
    · exact beq_iff_eq
    · rw [State.breakReservation, State.freeReservation, none]
    · intro holds
      have is : s.holds p = true ↔ holds := holds_iff s p
      have isNot : s.holds p = false ↔ ¬ holds := by rw [← is, Bool.not_eq_true]
      rw [askPort_eq]
      refine ⟨fun h lock => ?_, fun h lock => ?_, fun h lock => ?_, fun h lock => ?_⟩
      · rw [lock, is.2 h]
      · rw [lock, is.2 h]
      · rw [lock, isNot.2 h]
      · rw [lock, isNot.2 h]

end Sys2Proof.Machine
end

section
/-! SUPPORT. The supply edge (R142): each block's part, and what the cascade leaves behind. -/

namespace Sys2Proof.Machine

/-! ### Each block's part -/

/-- The positioner with its work cleared, and the session's seek answered (R53). -/
def State.workCleared (s : State) : State := { s with
  pos := { s.pos with
    profile := none, waitingTarget := none, heldRetract := false, plan := [], request := none, loadTimer := none,
    stepTimer := none, settleTimer := none }
  session := s.session.map fun x => { x with seekOutstanding := false } }

theorem posSupplyEdge_eq (s : State) : s.posSupplyEdge = match s.pos.state with
    | .unloaded => s.workCleared
    | .loading => s.workCleared.updPos fun x => { x with state := .unloaded }
    | .onTrack => s.workCleared.beginEmergency s.emergencyDistance
    | .recalibrating => s.workCleared.setUncertain.beginEmergency s.emergencyDistance
    | .seeking => s.workCleared.setUncertain.beginEmergency s.emergencyDistance
    | .settling => s.workCleared.setUncertain.beginEmergency s.emergencyDistance
    | .retracting => s.workCleared.beginEmergency s.emergencyDistance
    | .emergencyRetract => s := rfl

theorem beginEmergency_eq (u : State) (distance : Nat) : u.beginEmergency distance =
    if distance = 0 then { u with pos := { u.pos with
      state := .unloaded, counter := 640, confidence := .known, profile := none, stepTimer := none,
      settleTimer := none } }
    else ({ u with pos := { u.pos with state := .emergencyRetract } } : State).startMove
      ⟨.emergency, .outward, distance, 0, u.params.intervals.take u.params.entries, u.params.settle⟩ := rfl

theorem spindleSupplyEdge_eq (s : State) (parked : Bool) :
    let waits : Bool := decide (s.custody.state = .mounting ∧ s.custody.step = some .spinning ∧
      s.custody.supplyHold = false ∧ s.supply.state = .high)
    let off : Spindle := { s.spindle with
      firstIndexTimer := none, lockTimer := none, absenceTimer := none, regainTimer := none, idleCount := 0
      idleTimer := none, restartFlag := false, standbyFlag := false, faultPending := false, standbyStop := false }
    s.spindleSupplyEdge parked = { s with
      seq := { s.seq with current := none }
      spindle := if s.spindle.state = .starting ∨ s.spindle.state = .locking ∨ s.spindle.state = .atSpeed then
          if parked then { off with
            state := .braking, duty := 0, quietTimer := some ⟨s.time, 400000⟩, restartFlag := waits }
          else { off with state := .coasting, duty := 0, quietTimer := none }
        else off } := by
  intro waits off
  have wait : (s.waitsForSpeed && decide (s.supply.state = .high)) = waits := by
    rw [waitsForSpeed_eq, ← Bool.decide_and]
    simp only [and_assoc]
    rfl
  unfold State.spindleSupplyEdge
  dsimp only
  split_ifs with turning
  · rw [enterBraking_eq]
    exact congrArg (fun b => ({ s with
      seq := { s.seq with current := none }
      spindle := { off with
        state := .braking, duty := 0, quietTimer := some ⟨s.time, 400000⟩, restartFlag := false || b } } : State)) wait
  · rfl
  · rfl

theorem custodySupplyEdge_eq (s : State) : s.custodySupplyEdge =
    match s.custody.state, s.custody.step, s.custody.forcedRejection with
    | .mounting, some .latching, _ => s
    | .mounting, _, some r => s.rejectMount r
    | .mounting, _, none => s.updCustody fun u => { u with step := some .spinning, supplyHold := true }
    | .releasing, _, _ => s.updCustody fun u => { u with releaseTimer := none }
    | _, _, _ => s := by
  unfold State.custodySupplyEdge
  cases s.custody.state with
  | mounting =>
    rcases s.custody.step with _ | k
    · cases s.custody.forcedRejection <;> rfl
    · cases k <;> cases s.custody.forcedRejection <;> rfl
  | _ => rfl

/-! ### What the edge's parts leave -/

/-- `t` is what `v` tells of a supply edge: the spindle, a supply that is low, a gate that is off, and the flag. -/
def State.EdgeTold (v t : State) : Prop :=
  t.spindle = v.spindle ∧ t.supply = v.supply ∧ t.seq.gate = false ∧
    ∀ p, (v.ctx p).conditions.supplyLow = true → (t.ctx p).conditions.supplyLow = true

theorem edgeTold_of_ctx {v t u : State} (spindle : u.spindle = t.spindle) (supply : u.supply = t.supply)
    (gate : u.seq.gate = t.seq.gate) (ctx : ∀ p, (u.ctx p).conditions = (t.ctx p).conditions) (h : v.EdgeTold t) :
    v.EdgeTold u := by
  obtain ⟨spindle', supply', gate', low'⟩ := h
  exact ⟨spindle.trans spindle', supply.trans supply', gate.trans gate', fun p low => ctx p ▸ low' p low⟩

theorem edgeTold_heads {v t : State} (x : Positioner) (c : Nat) (h : v.EdgeTold t) :
    v.EdgeTold { t with pos := x, carriage := c } := edgeTold_of_ctx rfl rfl rfl (fun p => by cases p <;> rfl) h

theorem edgeTold_books (v : State) : BookClosed v.EdgeTold where
  session _ _ := edgeTold_of_ctx rfl rfl rfl fun p => by cases p <;> rfl
  slots _ _ := edgeTold_of_ctx rfl rfl rfl fun p => by cases p <;> rfl
  pool _ _ := edgeTold_of_ctx rfl rfl rfl fun p => by cases p <;> rfl
  waiting t h := ite_closed (edgeTold_heads _ t.carriage h) h
  context t q c aside := edgeTold_of_ctx (by cases q <;> rfl) (by cases q <;> rfl) (by cases q <;> rfl)
    (setCtx_conditions aside)

theorem edgeTold_closed (v : State) : RejectClosed v.EdgeTold where
  toBookClosed := edgeTold_books v
  custody _ _ := edgeTold_of_ctx rfl rfl rfl fun p => by cases p <;> rfl
  locks _ := edgeTold_of_ctx rfl rfl rfl fun p => by cases p <;> rfl
  retract _ h := retractRequest_closed (edgeTold_books v) (fun _ _ _ => edgeTold_heads _ _) h

theorem edgeTold_self {v : State} (off : v.seq.gate = false) : v.EdgeTold v := ⟨rfl, rfl, off, fun _ low => low⟩

theorem edgeTold_trans {v t u : State} (h : v.EdgeTold t) (h' : t.EdgeTold u) : v.EdgeTold u := by
  obtain ⟨spindle, supply, -, low⟩ := h
  obtain ⟨spindle', supply', gate', low'⟩ := h'
  exact ⟨spindle'.trans spindle, supply'.trans supply, gate', fun p flag => low' p (low p flag)⟩

theorem setUncertain_edgeTold {v t : State} (h : v.EdgeTold t) : v.EdgeTold t.setUncertain := by
  obtain ⟨spindle, supply, gate, low⟩ := h
  refine ite_closed (P := v.EdgeTold) ⟨spindle, supply, gate, fun p flag => ?_⟩ ⟨spindle, supply, gate, low⟩
  have kept := low p flag
  rw [State.raiseFlag_ctx]
  refine Eq.trans ?_ kept
  cases p <;> exact (apply_ite (fun c : PortContext => c.conditions.supplyLow) _ _ _).trans (ite_self _)

theorem beginEmergency_edgeTold {v t : State} (distance : Nat) (h : v.EdgeTold t) :
    v.EdgeTold (t.beginEmergency distance) := by
  rw [beginEmergency_eq]
  refine ite_closed (P := v.EdgeTold) (edgeTold_heads _ t.carriage h) ?_
  rw [startMove_frame]
  exact edgeTold_heads _ _ h

theorem posSupplyEdge_edgeTold {v s : State} (h : v.EdgeTold s) : v.EdgeTold s.posSupplyEdge := by
  have cleared : v.EdgeTold s.workCleared := edgeTold_of_ctx rfl rfl rfl (fun p => by cases p <;> rfl) h
  rw [posSupplyEdge_eq]
  split
  · exact cleared
  · exact edgeTold_heads _ s.carriage cleared
  · exact beginEmergency_edgeTold _ cleared
  · exact beginEmergency_edgeTold _ (setUncertain_edgeTold cleared)
  · exact beginEmergency_edgeTold _ (setUncertain_edgeTold cleared)
  · exact beginEmergency_edgeTold _ (setUncertain_edgeTold cleared)
  · exact beginEmergency_edgeTold _ cleared
  · exact h

theorem beginEmergency_pos (u : State) (distance : Nat) :
    (u.beginEmergency distance).pos.state = .emergencyRetract ∨ (u.beginEmergency distance).pos.state = .unloaded := by
  rw [beginEmergency_eq]
  split
  · exact .inr rfl
  · rw [startMove_eq]
    split_ifs <;> exact .inl rfl

/-- The heads are parked, or are on their way out (R53). -/
theorem posSupplyEdge_pos (s : State) :
    (s.pos.state = .unloaded ∨ s.pos.state = .loading → s.posSupplyEdge.pos.state = .unloaded) ∧
    (¬ (s.pos.state = .unloaded ∨ s.pos.state = .loading) →
      s.posSupplyEdge.pos.state = .emergencyRetract ∨ s.posSupplyEdge.pos.state = .unloaded) := by
  rw [posSupplyEdge_eq]
  split
  next state => exact ⟨fun _ => state, fun away => absurd (.inl state) away⟩
  next state => exact ⟨fun _ => rfl, fun away => absurd (.inr state) away⟩
  next state => exact ⟨fun parked => by simp [state] at parked, fun _ => beginEmergency_pos _ _⟩
  next state => exact ⟨fun parked => by simp [state] at parked, fun _ => beginEmergency_pos _ _⟩
  next state => exact ⟨fun parked => by simp [state] at parked, fun _ => beginEmergency_pos _ _⟩
  next state => exact ⟨fun parked => by simp [state] at parked, fun _ => beginEmergency_pos _ _⟩
  next state => exact ⟨fun parked => by simp [state] at parked, fun _ => beginEmergency_pos _ _⟩
  next state => exact ⟨fun parked => by simp [state] at parked, fun _ => .inl state⟩

theorem custodySupplyEdge_closed {P : State → Prop} (C : RejectClosed P) {s : State} (h : P s) :
    P s.custodySupplyEdge := by
  rw [custodySupplyEdge_eq]
  split
  · exact h
  · exact C.rejectMount h _
  · exact C.updCustody h _
  · exact C.updCustody h _
  · exact h

/-- No record read is judged after custody's part of the edge (R100, R113). -/
theorem custodySupplyEdge_quiet (s : State) : s.custodySupplyEdge.mountsAt .readingRecord = false := by
  unfold State.custodySupplyEdge
  split
  next state step =>
    rw [State.mountsAt, state, step]
    rfl
  next state _ =>
    split
    · rw [State.mountsAt, rejectMount_custody_state]
      rfl
    · exact Bool.and_false _
  next state =>
    refine Bool.and_eq_false_imp.2 fun mounts => ?_
    simp [State.updCustody, state] at mounts
  next other _ _ =>
    rw [← Bool.not_eq_true, mountsAt_iff]
    rintro ⟨state, -, -⟩
    exact other state

/-! ### A session's failure while no record read is judged -/

/-- `P` is not disturbed by the books, nor by what a failure ends, and holds only where no record read is judged. -/
structure QuietClosed (P : State → Prop) : Prop extends BookClosed P where
  driveReq : ∀ s x, P s → P { s with driveReq := x }
  gate : ∀ s, P s → P s.dropGate
  work : ∀ s op pass, P s → P { s with seq := { s.seq with op := op, pass := pass } }
  quiet : ∀ s, P s → s.mountsAt .readingRecord = false

theorem recordReadJudgement_of_quiet {s : State} (quiet : s.mountsAt .readingRecord = false) (o : DriveOutcome) :
    s.recordReadJudgement o = s := if_neg (Bool.not_eq_true _ ▸ quiet)

namespace QuietClosed

variable {P : State → Prop} (C : QuietClosed P) {s : State} (h : P s)
include C h

theorem maintenanceEnd_failed (p : Port) (c : Cause) : P (s.maintenanceEnd p (.failed c)) := by
  unfold State.maintenanceEnd
  split
  · exact h
  · refine ite_closed (C.updCtx h p fun _ => ⟨_, _, _, _, _, rfl⟩) (C.updCtx h p fun d => ?_)
    obtain ⟨_, _, _, _, _, placed⟩ := PortContext.aside_placeMaint { d with maint := some _ }
    exact ⟨_, _, _, _, _, placed⟩

theorem reportDrive_failed (c : Cause) : P (s.reportDrive (.failed c)) := by
  unfold State.reportDrive
  split
  · exact h
  · have told := C.mapSlots (C.driveReq s none h) fun x => if x.owner == some .drive then Slot.blank else x
    dsimp only
    split
    · rwa [recordReadJudgement_of_quiet (C.quiet _ told)]
    · exact C.maintenanceEnd_failed told _ _

theorem reportDrive_failed_driveReq (c : Cause) : (s.reportDrive (.failed c)).driveReq = none := by
  unfold State.reportDrive
  split
  · assumption
  · have told := C.mapSlots (C.driveReq s none h) fun x => if x.owner == some .drive then Slot.blank else x
    dsimp only
    split
    · rw [recordReadJudgement_of_quiet (C.quiet _ told)]
      rfl
    · unfold State.maintenanceEnd
      split
      · rfl
      · dsimp only
        split_ifs <;> exact State.updCtx_driveReq _ _ _

theorem reportDrive_failed_session (c : Cause) : (s.reportDrive (.failed c)).session = s.session := by
  unfold State.reportDrive
  split
  · rfl
  · have told := C.mapSlots (C.driveReq s none h) fun x => if x.owner == some .drive then Slot.blank else x
    dsimp only
    split
    · rw [recordReadJudgement_of_quiet (C.quiet _ told)]
      rfl
    · exact maintenanceEnd_failed_session _ _ _

/-- A session that fails stays failed, or is closed (R87). -/
theorem failSession {cause activeCause : Cause} :
    P (s.failSession cause activeCause) ∧ (s.failSession cause activeCause).FailedSession := by
  unfold State.failSession
  split
  next none => exact ⟨h, fun x open_ => nomatch none.symm.trans open_⟩
  next x _ =>
    extract_lets t1 _ t2 t3 t4 t5 t6
    have h3 : P t3 := C.updSession (C.work _ none none (C.gate s h)) _
    have h5 : P t5 := C.failEntries (C.mapSlots h3 _) _
    have h6 : P t6 := ite_closed (C.reportDrive_failed h5 _) h5
    have failed3 : t3.FailedSession := by
      intro y held
      obtain ⟨z, -, rfl⟩ := Option.map_eq_some_iff.1 held
      rfl
    have failed5 : t5.FailedSession := failedSession_of_eq (failEntries_session t4 _) failed3
    have failed6 : t6.FailedSession :=
      ite_closed (failedSession_of_eq (C.reportDrive_failed_session h5 _) failed5) failed5
    exact ⟨C.closeJudgement (ite_closed (C.updSession (C.waiting _ h6) _) h6), failedSession_closeJudgement (ite_closed
      (failedSession_updSession (fun _ hx => hx) (failedSession_of_eq (dropWaiting_session t6) failed6)) failed6)⟩

end QuietClosed

theorem edgeTold_quiet {v : State} (quiet : v.mountsAt .readingRecord = false) : QuietClosed fun t =>
    v.EdgeTold t ∧ t.pos.state = v.pos.state ∧ t.custody = v.custody where
  session _ _ h := ⟨(edgeTold_books v).session _ _ h.1, h.2⟩
  slots _ _ h := ⟨(edgeTold_books v).slots _ _ h.1, h.2⟩
  pool _ _ h := ⟨(edgeTold_books v).pool _ _ h.1, h.2⟩
  waiting t h := by
    refine ⟨(edgeTold_books v).waiting t h.1, ?_⟩
    unfold State.dropWaiting
    split <;> exact h.2
  context t q c aside h := ⟨(edgeTold_books v).context t q c aside h.1, by cases q <;> exact h.2⟩
  driveReq _ _ h := ⟨edgeTold_of_ctx rfl rfl rfl (fun p => by cases p <;> rfl) h.1, h.2⟩
  gate t h := by
    rw [dropGate_of_off h.1.2.2.1]
    exact h
  work _ _ _ h := ⟨edgeTold_of_ctx rfl rfl rfl (fun p => by cases p <;> rfl) h.1, h.2⟩
  quiet t h := by rw [State.mountsAt, h.2.2]; exact quiet

/-! ### READY entries and inbound phases -/

theorem placeTransfer_entries {c : PortContext} {tag : Byte} {e : Entry} (mem : e ∈ (c.placeTransfer tag).queue) :
    ∃ d ∈ c.queue, d.state = e.state ∧ d.tag = e.tag := by
  have placed (pl : Placement) (mem : e ∈ (c.place tag pl).queue) :
      ∃ d ∈ c.queue, d.state = e.state ∧ d.tag = e.tag := by
    obtain ⟨d, held, rfl⟩ := List.mem_map.1 mem
    refine ⟨d, held, ?_⟩
    split <;> exact ⟨rfl, rfl⟩
  unfold PortContext.placeTransfer at mem
  split at mem
  · exact ⟨e, mem, rfl, rfl⟩
  · split_ifs at mem
    · exact ⟨e, mem, rfl, rfl⟩
    · exact placed _ mem
    · exact placed _ mem

theorem completeEntry_ctx_other (s : State) (p : Port) (tag : Byte) (o : XferOutcome) :
    (s.completeEntry p tag o).ctx p.other = s.ctx p.other := by
  unfold State.completeEntry
  split
  · rfl
  · dsimp only
    split_ifs <;> cases p <;> rfl

/-- A completed entry is READY no more, and no other entry becomes so. -/
theorem completeEntry_ready {s : State} {p : Port} {tag : Byte} {o : XferOutcome} {e : Entry}
    (mem : e ∈ ((s.completeEntry p tag o).ctx p).queue) (ready : e.state = .ready) :
    e.tag ≠ tag ∧ ∃ d ∈ (s.ctx p).queue, d.state = .ready ∧ d.tag = e.tag := by
  unfold State.completeEntry at mem
  split at mem
  next none => exact ⟨entry?_eq_none.1 none e mem, e, mem, ready, rfl⟩
  next f live =>
    have recorded : e ∈ (((s.updEntry p tag fun e => e.complete o s.time).ctx p).placeTransfer tag).queue := by
      dsimp only at mem
      split_ifs at mem <;> cases p <;> exact mem
    obtain ⟨d, held, state, same⟩ := placeTransfer_entries recorded
    rw [State.updEntry, State.updCtx_ctx] at held
    obtain ⟨c, queued, rfl⟩ := List.mem_map.1 held
    split at state
    next mine =>
      rw [ready] at state
      cases state
    next others =>
      rw [if_neg others] at same
      rw [← same]
      exact ⟨fun is => others (beq_iff_eq.2 is), c, queued, state.trans ready, rfl⟩

/-- Steps that each take one tag's entries out of READY, over a list. -/
theorem foldl_ready {p : Port} (f : State → Entry → State)
    (step : ∀ u x e, e ∈ ((f u x).ctx p).queue → e.state = .ready →
      e.tag ≠ x.tag ∧ ∃ d ∈ (u.ctx p).queue, d.state = .ready ∧ d.tag = e.tag) (l : List Entry) :
    ∀ u e, e ∈ ((l.foldl f u).ctx p).queue → e.state = .ready →
      (∀ x ∈ l, e.tag ≠ x.tag) ∧ ∃ d ∈ (u.ctx p).queue, d.state = .ready ∧ d.tag = e.tag := by
  induction l with
  | nil => exact fun u e mem ready => ⟨List.forall_mem_nil _, e, mem, ready, rfl⟩
  | cons x l ih =>
    intro u e mem ready
    obtain ⟨others, d, held, state, same⟩ := ih (f u x) e mem ready
    obtain ⟨away, d', held', state', same'⟩ := step u x d held state
    refine ⟨fun y place => ?_, d', held', state', same'.trans same⟩
    rcases List.mem_cons.1 place with rfl | place
    · exact same ▸ away
    · exact others y place

theorem failReady_ready (s : State) (p : Port) : ∀ e ∈ ((s.failReady p).ctx p).queue, e.state ≠ .ready := by
  unfold State.failReady
  intro e mem ready
  obtain ⟨others, d, held, state, same⟩ :=
    foldl_ready _ (fun u x e => completeEntry_ready) _ s e mem ready
  exact others d (List.mem_filter.2 ⟨held, beq_iff_eq.2 state⟩) same.symm

theorem failReady_ctx_other (s : State) (p : Port) : (s.failReady p).ctx p.other = s.ctx p.other :=
  foldl_closed (P := fun t => t.ctx p.other = s.ctx p.other) _
    (fun _ _ hu => (completeEntry_ctx_other _ _ _ _).trans hu) rfl

theorem failReady_closed {P : State → Prop} (B : BookClosed P) {s : State} (h : P s) (p : Port) : P (s.failReady p) :=
  foldl_closed (P := P) _ (fun _ e hu => B.completeEntry hu p e.tag _) h

theorem failReady_session (s : State) (p : Port) : (s.failReady p).session = s.session :=
  foldl_closed (P := fun t => t.session = s.session) _ (fun _ _ hu => (completeEntry_session _ _ _ _).trans hu) rfl

/-- The end of an inbound phase touches the port's own context and the buffers. -/
theorem edgeEndsPhase_frame (s : State) (p : Port) : ∃ c pool, s.edgeEndsPhase p = { s.setCtx p c with pool := pool } ∧
    c.conditions = (s.ctx p).conditions ∧ c.link.state ≠ .dataIn ∧ ∀ e ∈ c.queue, e ∈ (s.ctx p).queue := by
  have undone : ∃ c pool, s.undoPhase p = { s.setCtx p c with pool := pool } ∧
      c.conditions = (s.ctx p).conditions ∧ ∀ e ∈ c.queue, e ∈ (s.ctx p).queue := by
    have same : s = { s.setCtx p (s.ctx p) with pool := s.pool } := by cases p <;> rfl
    unfold State.undoPhase
    split
    · unfold State.removeEntry
      split
      · exact ⟨_, _, same, rfl, fun _ mem => mem⟩
      · exact ⟨_, _, rfl, rfl, fun _ mem => (List.mem_filter.1 mem).1⟩
    · exact ⟨{ s.ctx p with maint := none }, s.pool, by cases p <;> rfl, rfl, fun _ mem => mem⟩
    · exact ⟨_, _, same, rfl, fun _ mem => mem⟩
  unfold State.edgeEndsPhase
  split
  · obtain ⟨c, pool, undo, conditions, queue⟩ := undone
    rw [State.timeOutPhase, undo]
    let told := ({ s.setCtx p c with pool := pool } : State).respond p (s.link p).work.codeTag.1
      (s.link p).work.codeTag.2 .dataTimeout []
    have answered : told.ctx p = _ := congrArg (fun u => State.ctx u p) (respond_eq _ p _ _ _ _)
    have held : ({ s.setCtx p c with pool := pool } : State).ctx p = c := by cases p <;> rfl
    rw [State.updCtx_ctx, held] at answered
    refine ⟨told.ctx p, pool, by cases p <;> rfl, ?_, ?_, ?_⟩ <;> rw [answered]
    · exact conditions
    · nofun
    · exact queue
  next away =>
    refine ⟨s.ctx p, s.pool, by cases p <;> rfl, rfl, fun inbound => away ?_, fun _ mem => mem⟩
    exact beq_iff_eq.2 inbound

/-! ### The cascade -/

/-- The edge is told, and the gate goes off (R82, R142). -/
def State.edgeAnnounced (s : State) : State :=
  ((({ s with supply := ⟨.low, none⟩ } : State).raiseFlag .supplyLow).postBoth .supplyLow).dropGate

/-- The positioner, the spindle and custody have taken the edge. -/
def State.edgeTaken (s : State) : State :=
  (s.edgeAnnounced.posSupplyEdge.spindleSupplyEdge
    (s.pos.state == .unloaded || s.pos.state == .loading)).custodySupplyEdge

/-- The session and the drive-owned request have failed. -/
def State.edgeFailed (s : State) : State :=
  (s.edgeTaken.failSession .supply (if s.seq.gate then .torn else .supply)).reportDrive (.failed .supply)

/-- The READY entries have completed. -/
def State.edgeEnded (s : State) : State := (s.edgeFailed.failReady .a).failReady .b

theorem cascade_eq (s : State) : s.cascade = (s.edgeEnded.edgeEndsPhase .a).edgeEndsPhase .b := rfl

theorem edgeAnnounced_frame (s : State) : s.edgeAnnounced.spindle = s.spindle ∧ s.edgeAnnounced.pos = s.pos ∧
    s.edgeAnnounced.supply = ⟨.low, none⟩ ∧ s.edgeAnnounced.seq.gate = false ∧
    ∀ p, (s.ctx p).linkPresent = true → (s.edgeAnnounced.ctx p).conditions.supplyLow = true := by
  refine ⟨?_, ?_, ?_, ?_, fun p connected => ?_⟩
  · rw [State.edgeAnnounced, dropGate_frame]
    rfl
  · rw [State.edgeAnnounced, dropGate_frame]
    rfl
  · rw [State.edgeAnnounced, dropGate_frame]
    rfl
  · rw [State.edgeAnnounced, dropGate_seq]
  · obtain ⟨-, -, -, conditions, -, -⟩ := PortContext.aside_post _ _ |>.fields
    rw [State.edgeAnnounced, dropGate_ctx, State.postBoth_ctx, conditions, State.raiseFlag_ctx, PortContext.raise]
    cases p <;> exact (if_pos connected).symm ▸ rfl

theorem edgeTaken_told (s : State) : s.edgeTaken.supply = ⟨.low, none⟩ ∧ s.edgeTaken.seq.gate = false ∧
    s.edgeTaken.spindle = ((s.edgeAnnounced.posSupplyEdge).spindleSupplyEdge
      (s.pos.state == .unloaded || s.pos.state == .loading)).spindle ∧
    ∀ p, (s.ctx p).linkPresent = true → (s.edgeTaken.ctx p).conditions.supplyLow = true := by
  obtain ⟨-, -, supply, gate, low⟩ := edgeAnnounced_frame s
  obtain ⟨-, supply', gate', low'⟩ := posSupplyEdge_edgeTold (edgeTold_self gate)
  let v := (s.edgeAnnounced.posSupplyEdge).spindleSupplyEdge (s.pos.state == .unloaded || s.pos.state == .loading)
  have edge : v = _ := spindleSupplyEdge_eq _ _
  have off : v.seq.gate = false := by rw [edge]; exact gate'
  obtain ⟨spindle'', supply'', gate'', low''⟩ : v.EdgeTold s.edgeTaken :=
    custodySupplyEdge_closed (edgeTold_closed v) (edgeTold_self off)
  refine ⟨supply''.trans ?_, gate'', spindle'', fun p connected => low'' p ?_⟩
  · rw [edge]
    exact supply'.trans supply
  · rw [edge]
    have flag := low' p (low p connected)
    cases p <;> exact flag

theorem edgeTaken_pos (s : State) :
    (s.pos.state = .unloaded ∨ s.pos.state = .loading → s.edgeTaken.pos.state = .unloaded) ∧
    (¬ (s.pos.state = .unloaded ∨ s.pos.state = .loading) →
      s.edgeTaken.pos.state = .emergencyRetract ∨ s.edgeTaken.pos.state = .unloaded) := by
  obtain ⟨-, pos, -, -, -⟩ := edgeAnnounced_frame s
  obtain ⟨parked, away⟩ := posSupplyEdge_pos s.edgeAnnounced
  rw [pos] at parked away
  have heads (S : PosState → Prop) (lets : S .loading → S .unloaded) (leaves : S .onTrack → S .retracting)
      (h : S (s.edgeAnnounced.posSupplyEdge).pos.state) : S s.edgeTaken.pos.state := by
    refine custodySupplyEdge_closed (P := fun t => S t.pos.state) (headsIn_closed lets leaves).toRejectClosed ?_
    rw [spindleSupplyEdge_eq]
    exact h
  exact ⟨fun h => heads (· = .unloaded) nofun nofun (parked h),
    fun h => heads (fun x => x = .emergencyRetract ∨ x = .unloaded) (by simp) (by simp) (away h)⟩

theorem edgeFailed_told (s : State) : s.edgeTaken.EdgeTold s.edgeFailed ∧
    s.edgeFailed.pos.state = s.edgeTaken.pos.state ∧ s.edgeFailed.driveReq = none ∧ s.edgeFailed.FailedSession := by
  have C := edgeTold_quiet (v := s.edgeTaken) (custodySupplyEdge_quiet _)
  have self : s.edgeTaken.EdgeTold s.edgeTaken := edgeTold_self (edgeTaken_told s).2.1
  obtain ⟨told, failed⟩ := C.failSession (cause := .supply) (activeCause := if s.seq.gate then .torn else .supply)
    ⟨self, rfl, rfl⟩
  obtain ⟨kept, pos, -⟩ := C.reportDrive_failed told .supply
  exact ⟨kept, pos, C.reportDrive_failed_driveReq told _,
    failedSession_of_eq (C.reportDrive_failed_session told _) failed⟩

theorem posState_books (x : PosState) : BookClosed fun t => t.pos.state = x where
  session _ _ h := h
  slots _ _ h := h
  pool _ _ h := h
  waiting _ h := ite_closed (P := fun t => t.pos.state = x) h h
  context t q c _ h := by cases q <;> exact h

theorem edgeEnded_told (s : State) : s.edgeTaken.EdgeTold s.edgeEnded ∧
    s.edgeEnded.pos.state = s.edgeTaken.pos.state ∧ s.edgeEnded.driveReq = none ∧ s.edgeEnded.FailedSession ∧
    ∀ p, ∀ e ∈ (s.edgeEnded.ctx p).queue, e.state ≠ .ready := by
  obtain ⟨told, pos, driveReq, failed⟩ := edgeFailed_told s
  have ends {P : State → Prop} (B : BookClosed P) (h : P s.edgeFailed) : P s.edgeEnded :=
    failReady_closed B (failReady_closed B h .a) .b
  refine ⟨ends (edgeTold_books _) told, ends (P := fun t => t.pos.state = s.edgeTaken.pos.state) ?_ pos,
    ends noDriveReq_books driveReq, failedSession_of_eq ((failReady_session _ _).trans (failReady_session _ _)) failed,
    fun p => ?_⟩
  · exact posState_books _
  · cases p with
    | a =>
      have kept : s.edgeEnded.ctx .a = (s.edgeFailed.failReady .a).ctx .a := failReady_ctx_other _ .b
      rw [kept]
      exact failReady_ready _ _
    | b => exact failReady_ready _ _

/-- The ends of the inbound phases touch the ports' contexts and the buffers. -/
theorem edgeEndsPhases_frame (u : State) : ∃ a b pool,
    (u.edgeEndsPhase .a).edgeEndsPhase .b = { u with portA := a, portB := b, pool := pool } ∧
    (a.conditions = u.portA.conditions ∧ a.link.state ≠ .dataIn ∧ ∀ e ∈ a.queue, e ∈ u.portA.queue) ∧
    b.conditions = u.portB.conditions ∧ b.link.state ≠ .dataIn ∧ ∀ e ∈ b.queue, e ∈ u.portB.queue := by
  obtain ⟨a, pool, endsA, placeA⟩ := edgeEndsPhase_frame u .a
  obtain ⟨b, pool', endsB, placeB⟩ := edgeEndsPhase_frame (u.edgeEndsPhase .a) .b
  have other : (u.edgeEndsPhase .a).ctx .b = u.ctx .b := by
    rw [endsA]
    rfl
  rw [other] at placeB
  refine ⟨a, b, pool', ?_, placeA, placeB⟩
  rw [endsB, endsA]
  rfl

/-- The spindle after the edge (R26), the supply being low. -/
theorem spindleSupplyEdge_spindle {u : State} (low : u.supply.state = .low) (parked : Bool) :
    let t := (u.spindleSupplyEdge parked).spindle
    let turning := u.spindle.state = .starting ∨ u.spindle.state = .locking ∨ u.spindle.state = .atSpeed
    t.restartFlag = false ∧ t.standbyFlag = false ∧ t.faultPending = false ∧ t.standbyStop = false ∧
    (turning → parked = true → t.state = .braking ∧ t.duty = 0) ∧
    (turning → parked = false → t.state = .coasting ∧ t.duty = 0) ∧
    (¬ turning → t.state = u.spindle.state ∧ t.duty = u.spindle.duty) := by
  intro t turning
  have edge : t = _ := congrArg State.spindle (spindleSupplyEdge_eq u parked)
  have waits : decide (u.custody.state = .mounting ∧ u.custody.step = some .spinning ∧
      u.custody.supplyHold = false ∧ u.supply.state = .high) = false := by simp [low]
  by_cases turns : turning
  · cases parked with
    | true =>
      replace edge := edge.trans ((if_pos turns).trans (if_pos rfl))
      rw [edge, waits]
      exact ⟨rfl, rfl, rfl, rfl, fun _ _ => ⟨rfl, rfl⟩, nofun, fun still => absurd turns still⟩
    | false =>
      replace edge := edge.trans ((if_pos turns).trans (if_neg Bool.false_ne_true))
      rw [edge]
      exact ⟨rfl, rfl, rfl, rfl, nofun, fun _ _ => ⟨rfl, rfl⟩, fun still => absurd turns still⟩
  · replace edge := edge.trans (if_neg turns)
    rw [edge]
    exact ⟨rfl, rfl, rfl, rfl, fun h => absurd h turns, fun h => absurd h turns, fun _ => ⟨rfl, rfl⟩⟩

theorem cascade_leaves (s : State) :
    let t := s.cascade
    t.supply = ⟨.low, none⟩ ∧ t.seq.gate = false ∧ t.driveReq = none ∧ t.spindle.restartFlag = false ∧
     t.spindle.standbyFlag = false ∧ t.spindle.faultPending = false ∧ t.spindle.standbyStop = false ∧
     (∀ x, t.session = some x → x.failed = true) ∧
     (∀ p, (s.ctx p).linkPresent = true → (t.ctx p).conditions.supplyLow = true) ∧
     (∀ p, (t.link p).state ≠ .dataIn ∧ ∀ e ∈ (t.ctx p).queue, e.state ≠ .ready) ∧
     (let turning := s.spindle.state = .starting ∨ s.spindle.state = .locking ∨ s.spindle.state = .atSpeed
      let parked := s.pos.state = .unloaded ∨ s.pos.state = .loading
      (turning → parked → t.spindle.state = .braking ∧ t.spindle.duty = 0) ∧
      (turning → ¬ parked → t.spindle.state = .coasting ∧ t.spindle.duty = 0) ∧
      (¬ turning → t.spindle.state = s.spindle.state ∧ t.spindle.duty = s.spindle.duty) ∧
      (parked → t.pos.state = .unloaded) ∧
      (¬ parked → t.pos.state = .emergencyRetract ∨ t.pos.state = .unloaded)) := by
  obtain ⟨a, b, pool, frame, ⟨conditionsA, linkA, queueA⟩, conditionsB, linkB, queueB⟩ :=
    edgeEndsPhases_frame s.edgeEnded
  obtain ⟨⟨spindle, supply, gate, low⟩, pos, driveReq, failed, ready⟩ := edgeEnded_told s
  obtain ⟨supply', -, spindle', low'⟩ := edgeTaken_told s
  obtain ⟨turned, -, lowered, off, -⟩ := edgeAnnounced_frame s
  obtain ⟨posSpindle, posSupply, -, -⟩ := posSupplyEdge_edgeTold (edgeTold_self off)
  obtain ⟨parks, leaves⟩ := edgeTaken_pos s
  obtain ⟨restart, flag, pending, stop, brakes, coasts, stays⟩ := spindleSupplyEdge_spindle
    (u := s.edgeAnnounced.posSupplyEdge) (by rw [posSupply, lowered])
    (s.pos.state == .unloaded || s.pos.state == .loading)
  rw [posSpindle, turned] at brakes coasts stays
  have is : (s.pos.state == .unloaded || s.pos.state == .loading) = true ↔
      s.pos.state = .unloaded ∨ s.pos.state = .loading := by simp
  have isNot : (s.pos.state == .unloaded || s.pos.state == .loading) = false ↔
      ¬ (s.pos.state = .unloaded ∨ s.pos.state = .loading) := by rw [← is, Bool.not_eq_true]
  rw [cascade_eq, frame]
  intro t
  have spindle : t.spindle = _ := spindle.trans spindle'
  have heads : t.pos.state = s.edgeTaken.pos.state := pos
  rw [spindle, heads]
  refine ⟨supply.trans supply', gate, driveReq, restart, flag, pending, stop, failed, fun p connected => ?_,
    fun p => ?_,
    fun turns parked => brakes turns (is.2 parked), fun turns away => coasts turns (isNot.2 away), stays, parks, leaves⟩
  · have kept := low p (low' p connected)
    cases p with
    | a => exact (congrArg Conditions.supplyLow conditionsA).trans kept
    | b => exact (congrArg Conditions.supplyLow conditionsB).trans kept
  · cases p with
    | a => exact ⟨linkA, fun e mem => ready .a e (queueA e mem)⟩
    | b => exact ⟨linkB, fun e mem => ready .b e (queueB e mem)⟩

/-- An inbound phase that the edge ends (R142). -/
theorem edgeEndsPhase_eq (u : State) (p : Port) : u.edgeEndsPhase p =
    if (u.link p).state = .dataIn then (match (u.link p).work with
      | .writeData tag => (u.removeEntry p tag).respond p 0x19 tag .dataTimeout []
      | .mediaRecord tag => (u.updCtx p fun c => { c with maint := none }).respond p 0x29 tag .dataTimeout []
      | _ => u.respond p 0x30 0 .dataTimeout [])
    else u := by
  simp only [State.edgeEndsPhase, beq_iff_eq, State.timeOutPhase, State.undoPhase]
  cases (u.link p).work <;> rfl

theorem failReady_eq (u : State) (p : Port) : u.failReady p =
    ((u.ctx p).queue.filter fun e => decide (e.state = .ready)).foldl (fun v e => v.completeEntry p e.tag
      (.failed (match e.first with | .absolute k => some k | .earliest => none) .supply)) u := by
  simp only [State.failReady, beq_eq_decide, slotlessFailure_eq] <;> rfl

theorem exec_recoveryTimerExpiry {s : State} {x : Timer} (recovering : s.supply.state = .recovering)
    (timer : s.supply.recoveryTimer = some x) (late : x.length ≤ (s.time - x.start).toNat) :
    exec .recoveryTimerExpiry s = .next
      ((({ s with supply := ⟨.high, none⟩ } : State).postBoth .supplyRecovered).custodyRecovery).finish := by
  refine next_of_due ?_ rfl
  rw [recovering, expired_of timer late]
  rfl

theorem custodyRecovery_eq (u : State) : u.custodyRecovery =
    if u.custody.state = .mounting ∧ u.custody.supplyHold = true then
      (u.updCustody fun c => { c with supplyHold := false }).spinRequest
    else if u.custody.state = .releasing then u.newAttempt else u := by
  simp only [State.custodyRecovery, Bool.and_eq_true, beq_iff_eq]

/-- Settles O60. -/
theorem supplyEdgesAndRecovery : Obligations.SupplyEdgesAndRecovery := by
  refine ⟨fun s => ?_, fun s => ?_, fun s parked => ?_⟩
  · intro low high
    refine ⟨fun state => ?_, fun state => ?_, fun state => ?_, cascade_leaves s, fun state => ?_, fun state => ?_,
      fun recovering x timer late => ?_⟩
    · refine congrArg Host.Outcome.next ?_
      rw [state]
    · refine congrArg Host.Outcome.next ?_
      rw [state]
    · refine congrArg Host.Outcome.next ?_
      rw [state]
    · refine congrArg Host.Outcome.next ?_
      rw [state]
      rfl
    · refine congrArg Host.Outcome.next ?_
      cases is : s.supply.state with
      | low => exact absurd is state
      | high => rfl
      | recovering => rfl
    · intro told
      have runs : exec .recoveryTimerExpiry s = .next told.custodyRecovery.finish :=
        exec_recoveryTimerExpiry recovering timer late
      have recovers : told.custodyRecovery = if s.custody.state = .mounting ∧ s.custody.supplyHold = true then
          (told.updCustody fun c => { c with supplyHold := false }).spinRequest
        else if s.custody.state = .releasing then told.newAttempt else told := custodyRecovery_eq told
      refine ⟨fun mounting hold => ?_, fun releasing => ?_, fun free other => ?_⟩
      · rw [runs, recovers, if_pos ⟨mounting, hold⟩]
        rfl
      · have away : ¬ (s.custody.state = .mounting ∧ s.custody.supplyHold = true) := fun h =>
          nomatch releasing.symm.trans h.1
        rw [runs, recovers, if_neg away, if_pos releasing]
        exact congrArg (fun state => Host.Outcome.next (State.finish { told with custody := { s.custody with
          state := state, jamCount := 0, releaseTimer := none, attemptDue := true } })) releasing.symm
      · have away : ¬ (s.custody.state = .mounting ∧ s.custody.supplyHold = true) := fun h =>
          nomatch (free h.1).symm.trans h.2
        rw [runs, recovers, if_neg away, if_neg other]
  · intro told failReady endPhase
    have ready (p : Port) (u : State) : u.failReady p = failReady p u := failReady_eq u p
    have phase (p : Port) (u : State) : u.edgeEndsPhase p = endPhase p u := edgeEndsPhase_eq u p
    have parked : (s.pos.state == .unloaded || s.pos.state == .loading) =
        decide (s.pos.state = .unloaded ∨ s.pos.state = .loading) := by
      rw [Bool.decide_or, beq_eq_decide, beq_eq_decide]
    rw [cascade_eq, phase, phase, State.edgeEnded, ready, ready, State.edgeFailed, State.edgeTaken, parked]
    rfl
  · intro cleared distance away waits off
    exact ⟨posSupplyEdge_eq s, spindleSupplyEdge_eq s parked, custodySupplyEdge_eq s⟩

end Sys2Proof.Machine
end

section
/-! SUPPORT. A port reset's queue (R67): which entries stay, which slots and buffers return. -/

namespace Sys2Proof.Machine

/-- One port's queue, the slots and the buffers replaced. -/
def State.withBooks (u : State) (p : Port) (queue : List Entry) (slots : List Slot) (pool : List (Option Port)) :
    State :=
  { u.setCtx p { u.ctx p with queue := queue } with slots := slots, pool := pool }

section
variable (u : State) (p : Port) (queue queue' : List Entry) (slots slots' : List Slot) (pool pool' : List (Option Port))

theorem withBooks_withBooks :
    (u.withBooks p queue slots pool).withBooks p queue' slots' pool' = u.withBooks p queue' slots' pool' := by
  cases p <;> rfl

theorem withBooks_self : u.withBooks p (u.ctx p).queue u.slots u.pool = u := by cases p <;> rfl

theorem withBooks_ctx : (u.withBooks p queue slots pool).ctx p = { u.ctx p with queue := queue } := by cases p <;> rfl

theorem withBooks_ctx_other : (u.withBooks p queue slots pool).ctx p.other = u.ctx p.other := by cases p <;> rfl

end

/-- What the reset of an entry makes of a slot: an ACTIVE one of an entry that stays is left. -/
def Slot.resetBy (p : Port) (stays : Entry → Bool) (x : Slot) (e : Entry) : Slot :=
  if x.heldBy p e.tag && !(stays e && x.state == .active) then Slot.blank else x

theorem resetBy_iff (p : Port) (stays : Entry → Bool) (x : Slot) (e : Entry) :
    (x.heldBy p e.tag && !(stays e && x.state == .active)) = true ↔
      x.heldBy p e.tag = true ∧ ¬ (stays e = true ∧ x.state = .active) := by
  rw [Bool.and_eq_true, Bool.not_eq_true', ← Bool.not_eq_true, Bool.and_eq_true, beq_iff_eq]

/-- The entry with the discard mark. -/
def Entry.discarded (e : Entry) : Entry := { e with discard := true }

theorem map_at_tag {done rest : List Entry} {e : Entry} (unique : ((done ++ e :: rest).map Entry.tag).Nodup)
    (g : Entry → Entry) :
    ((done ++ e :: rest).map fun x => if x.tag == e.tag then g x else x) = done ++ g e :: rest := by
  obtain ⟨-, others, away⟩ : (done.map Entry.tag).Nodup ∧ ((e :: rest).map Entry.tag).Nodup ∧ _ :=
    List.nodup_append'.1 (List.map_append .. ▸ unique)
  have before : (done.map fun x => if x.tag == e.tag then g x else x) = done := by
    refine (List.map_congr_left fun x mem => ?_).trans (List.map_id done)
    refine if_neg fun same => away (List.mem_map_of_mem mem) ?_
    rw [beq_iff_eq.1 same]
    exact List.mem_cons_self
  have after : (rest.map fun x => if x.tag == e.tag then g x else x) = rest := by
    refine (List.map_congr_left fun x mem => ?_).trans (List.map_id rest)
    refine if_neg fun same => (List.nodup_cons.1 others).1 ?_
    rw [← beq_iff_eq.1 same]
    exact List.mem_map_of_mem mem
  rw [List.map_append, List.map_cons, before, after, beq_self_eq_true, if_pos rfl]

theorem filter_at_tag {done rest : List Entry} {e : Entry} (unique : ((done ++ e :: rest).map Entry.tag).Nodup) :
    ((done ++ e :: rest).filter fun x => !(x.tag == e.tag)) = done ++ rest := by
  obtain ⟨-, others, away⟩ : (done.map Entry.tag).Nodup ∧ ((e :: rest).map Entry.tag).Nodup ∧ _ :=
    List.nodup_append'.1 (List.map_append .. ▸ unique)
  have before : (done.filter fun x => !(x.tag == e.tag)) = done := by
    refine List.filter_eq_self.2 fun x mem => ?_
    rw [Bool.not_eq_true', beq_eq_false_iff_ne]
    intro same
    refine away (List.mem_map_of_mem mem) ?_
    rw [same]
    exact List.mem_cons_self
  have after : (rest.filter fun x => !(x.tag == e.tag)) = rest := by
    refine List.filter_eq_self.2 fun x mem => ?_
    rw [Bool.not_eq_true', beq_eq_false_iff_ne]
    intro same
    refine (List.nodup_cons.1 others).1 ?_
    rw [← same]
    exact List.mem_map_of_mem mem
  rw [List.filter_append, List.filter_cons_of_neg (by simp), before, after]

theorem find_at_tag {done rest : List Entry} {e : Entry} (unique : ((done ++ e :: rest).map Entry.tag).Nodup) :
    ((done ++ e :: rest).find? fun x => x.tag == e.tag) = some e := by
  obtain ⟨-, -, away⟩ : (done.map Entry.tag).Nodup ∧ ((e :: rest).map Entry.tag).Nodup ∧ _ :=
    List.nodup_append'.1 (List.map_append .. ▸ unique)
  have before : (done.find? fun x => x.tag == e.tag) = none := by
    refine List.find?_eq_none.2 fun x mem same => away (List.mem_map_of_mem mem) ?_
    rw [beq_iff_eq.1 same]
    exact List.mem_cons_self
  rw [List.find?_append, before, Option.none_or, List.find?_cons_of_pos (by simp)]

section
variable {u : State} {p : Port} {done rest : List Entry} {e : Entry} (queue : (u.ctx p).queue = done ++ e :: rest)
  (unique : ((done ++ e :: rest).map Entry.tag).Nodup) {stays : Entry → Bool}
  (judged : stays e = (e.state == .inSession && u.hasActiveSlot p e.tag))
include queue unique judged

theorem resetEntry_of_stays (stay : stays e = true) : u.resetEntry p e =
    u.withBooks p (done ++ e.discarded :: rest) (u.slots.map fun x => x.resetBy p stays e) u.pool := by
  have slots : (u.slots.map fun x => if x.heldBy p e.tag && !(x.state == .active) then Slot.blank else x) =
      u.slots.map fun x => x.resetBy p stays e := by simp only [Slot.resetBy, stay, Bool.true_and]
  rw [State.resetEntry, ← judged, if_pos stay, ← map_at_tag unique, ← queue, ← slots]
  cases p <;> rfl

theorem resetEntry_of_goes (goes : stays e = false) : u.resetEntry p e =
    u.withBooks p (done ++ rest) (u.slots.map fun x => x.resetBy p stays e)
      (e.buffers.foldl (fun pool i => pool.set i none) u.pool) := by
  have slots : (u.slots.map fun x => if x.heldBy p e.tag then Slot.blank else x) =
      u.slots.map fun x => x.resetBy p stays e := by
    simp only [Slot.resetBy, goes, Bool.false_and, Bool.not_false, Bool.and_true]
  have live : (u.emptySlots p e.tag).entry? p e.tag = some e := by
    rw [← find_at_tag unique, ← queue]
    cases p <;> rfl
  rw [State.resetEntry, ← judged, goes, if_neg Bool.false_ne_true, removeEntry_of_some live, ← filter_at_tag unique,
    ← queue, ← slots]
  cases p <;> rfl

end

/-- The reset of one entry's slots leaves another entry's ACTIVE slot. -/
theorem hasActiveSlot_resetBy (slots : List Slot) (p : Port) (stays : Entry → Bool) (e : Entry) {tag : Byte}
    (other : tag ≠ e.tag) :
    ((slots.map fun x => x.resetBy p stays e).any fun x => x.heldBy p tag && x.state == .active) =
      slots.any fun x => x.heldBy p tag && x.state == .active := by
  rw [List.any_map]
  refine List.any_congr rfl fun x => ?_
  change ((x.resetBy p stays e).heldBy p tag && (x.resetBy p stays e).state == .active) = _
  unfold Slot.resetBy
  split
  next cleared =>
    have others : x.heldBy p tag = false := by
      rw [← Bool.not_eq_true, heldBy_iff]
      rintro ⟨-, same⟩
      obtain ⟨-, mine⟩ := (heldBy_iff _ _ _).1 (Bool.and_eq_true_iff.1 cleared).1
      exact other (Option.some.inj (same.symm.trans mine))
    rw [others]
    rfl
  · rfl

/-- The whole queue's reset (R67). -/
theorem foldl_resetEntry (p : Port) (stays : Entry → Bool) (rest : List Entry) : ∀ (done : List Entry) (u : State),
    (u.ctx p).queue = done ++ rest → ((done ++ rest).map Entry.tag).Nodup →
    (∀ e ∈ rest, stays e = (e.state == .inSession && u.hasActiveSlot p e.tag)) →
    rest.foldl (fun u e => u.resetEntry p e) u = u.withBooks p (done ++ (rest.filter stays).map Entry.discarded)
      (u.slots.map fun x => rest.foldl (fun y e => y.resetBy p stays e) x)
      ((rest.filter fun e => !stays e).foldl (fun pool e => e.buffers.foldl (fun pool i => pool.set i none) pool)
        u.pool) := by
  induction rest with
  | nil =>
    intro done u queue _ _
    have whole : (u.ctx p).queue = done := queue.trans (List.append_nil done)
    simp only [List.foldl_nil, List.filter_nil, List.map_nil, List.append_nil, List.map_id', ← whole]
    exact (withBooks_self u p).symm
  | cons e rest ih =>
    intro done u queue unique judged
    have judgedRest {v : State} (slots : v.slots = u.slots.map fun x => x.resetBy p stays e) :
        ∀ f ∈ rest, stays f = (f.state == .inSession && v.hasActiveSlot p f.tag) := by
      intro f mem
      have other : f.tag ≠ e.tag := by
        have tail : ((e :: rest).map Entry.tag).Nodup := (List.nodup_append'.1 (List.map_append .. ▸ unique)).2.1
        exact fun same => (List.nodup_cons.1 tail).1 (same ▸ List.mem_map_of_mem mem)
      rw [judged f (List.mem_cons_of_mem e mem), State.hasActiveSlot, State.hasActiveSlot, slots,
        hasActiveSlot_resetBy u.slots p stays e other]
    have head := judged e List.mem_cons_self
    rw [List.foldl_cons]
    cases stay : stays e with
    | true =>
      rw [resetEntry_of_stays queue unique head stay]
      have kept : (done ++ [e.discarded]) ++ rest = done ++ e.discarded :: rest := List.append_assoc ..
      have unique' : (((done ++ [e.discarded]) ++ rest).map Entry.tag).Nodup := by
        rw [kept]
        simpa [Entry.discarded] using unique
      refine (ih (done ++ [e.discarded]) _ ?_ unique' (judgedRest rfl)).trans ?_
      · rw [withBooks_ctx, kept]
      · rw [withBooks_withBooks, List.filter_cons_of_pos stay, List.filter_cons_of_neg (by simp [stay])]
        simp only [List.map_cons, List.append_assoc, List.cons_append, List.nil_append, State.withBooks, List.map_map]
        rfl
    | false =>
      rw [resetEntry_of_goes queue unique head stay]
      have unique' : ((done ++ rest).map Entry.tag).Nodup :=
        unique.sublist (((List.sublist_cons_self e rest).append_left done).map _)
      refine (ih done _ ?_ unique' (judgedRest rfl)).trans ?_
      · rw [withBooks_ctx]
      · rw [withBooks_withBooks, List.filter_cons_of_neg (by simp [stay]), List.filter_cons_of_pos (by simp [stay])]
        simp only [State.withBooks, List.map_map]
        rfl

/-- The entries of port `p` that a reset leaves: those with an operation in flight (R67). -/
def State.staysAtReset (s : State) (p : Port) (e : Entry) : Bool :=
  decide (e.state = .inSession ∧ s.hasActiveSlot p e.tag = true)

/-- The slots and the buffers after a port reset's queue. -/
def State.resetSlots (s : State) (p : Port) : List Slot :=
  s.slots.map fun x => (s.ctx p).queue.foldl (fun y e => y.resetBy p (s.staysAtReset p) e) x

def State.resetPool (s : State) (p : Port) : List (Option Port) :=
  (((s.ctx p).queue.filter fun e => !s.staysAtReset p e).flatMap Entry.buffers).foldl
    (fun pool i => pool.set i none) s.pool

theorem resetQueue_eq {s : State} {p : Port} (unique : ((s.ctx p).queue.map Entry.tag).Nodup) :
    s.resetQueue p = s.withBooks p (((s.ctx p).queue.filter (s.staysAtReset p)).map Entry.discarded) (s.resetSlots p)
      (s.resetPool p) := by
  rw [State.resetPool, List.foldl_flatMap]
  refine foldl_resetEntry p (s.staysAtReset p) (s.ctx p).queue [] s rfl unique fun e _ => ?_
  rw [State.staysAtReset, Bool.decide_and, beq_eq_decide, Bool.decide_eq_true]

/-- What is left of a slot: it is cleared by an entry that holds it, but for an ACTIVE one of an entry that stays. -/
theorem foldl_resetBy (p : Port) (stays : Entry → Bool) (l : List Entry) (x : Slot) :
    l.foldl (fun y e => y.resetBy p stays e) x =
      if ∃ e ∈ l, x.heldBy p e.tag = true ∧ ¬ (stays e = true ∧ x.state = .active) then Slot.blank else x := by
  have cleared (l : List Entry) : l.foldl (fun y e => y.resetBy p stays e) Slot.blank = Slot.blank := by
    induction l with
    | nil => rfl
    | cons e l ih => exact ih
  induction l with
  | nil => simp
  | cons e l ih =>
    rw [List.foldl_cons, Slot.resetBy]
    split
    next mine =>
      obtain ⟨held, goes⟩ := (resetBy_iff p stays x e).1 mine
      rw [cleared, if_pos ⟨e, List.mem_cons_self, held, goes⟩]
    next others =>
      rw [ih]
      refine if_congr ⟨?_, ?_⟩ rfl rfl
      · rintro ⟨f, mem, rest⟩
        exact ⟨f, List.mem_cons_of_mem e mem, rest⟩
      · rintro ⟨f, mem, held, goes⟩
        rcases List.mem_cons.1 mem with rfl | mem
        · exact absurd ((resetBy_iff p stays x f).2 ⟨held, goes⟩) others
        · exact ⟨f, mem, held, goes⟩

theorem length_resetSlots (s : State) (p : Port) : (s.resetSlots p).length = s.slots.length := List.length_map _

theorem length_resetPool (s : State) (p : Port) : (s.resetPool p).length = s.pool.length := length_foldl_set ..

/-- The buffers of the entries that go return to FREE, and no others (R67). -/
theorem getElem?_resetPool {s : State} {p : Port} {i : Nat} {h : Option Port} (place : s.pool[i]? = some h) :
    ((∃ e ∈ (s.ctx p).queue, s.staysAtReset p e = false ∧ i ∈ e.buffers) → (s.resetPool p)[i]? = some none) ∧
    ((∀ e ∈ (s.ctx p).queue, s.staysAtReset p e = false → i ∉ e.buffers) → (s.resetPool p)[i]? = some h) := by
  have low : i < s.pool.length := (List.getElem?_eq_some_iff.1 place).1
  have given : i ∈ ((s.ctx p).queue.filter fun e => !s.staysAtReset p e).flatMap Entry.buffers ↔
      ∃ e ∈ (s.ctx p).queue, s.staysAtReset p e = false ∧ i ∈ e.buffers := by
    simp [List.mem_flatMap, and_assoc]
  rw [State.resetPool, getElem?_foldl_set _ _ _ low]
  refine ⟨fun goes => if_pos (given.2 goes), fun stay => (if_neg fun mem => ?_).trans place⟩
  obtain ⟨e, held, goes, mem⟩ := given.1 mem
  exact stay e held goes mem

/-- A slot of an entry of the port, after the reset: it is ACTIVE, and as it was. -/
theorem resetSlots_held {s : State} {p : Port} {k : Nat} {x : Slot} {e : Entry} (place : (s.resetSlots p)[k]? = some x)
    (mem : e ∈ (s.ctx p).queue) (owner : x.owner = some (.port p)) (tagged : x.tag = some e.tag) :
    x.state = .active ∧ s.slots[k]? = some x := by
  rw [State.resetSlots, List.getElem?_map] at place
  obtain ⟨y, held, rest⟩ := Option.map_eq_some_iff.1 place
  rw [foldl_resetBy] at rest
  split at rest
  next =>
    rw [← rest] at owner
    cases owner
  next keeps =>
    subst rest
    refine ⟨?_, held⟩
    by_contra idle
    exact keeps ⟨e, mem, (heldBy_iff _ _ _).2 ⟨owner, tagged⟩, fun h => idle h.2⟩

/-- A slot that the reset leaves. -/
theorem resetSlots_kept {s : State} {p : Port} (unique : ((s.ctx p).queue.map Entry.tag).Nodup) {k : Nat} {x : Slot}
    (place : s.slots[k]? = some x) (kept : x.owner = some (.port p) → x.state = .active ∧
      ∃ e ∈ (s.ctx p).queue, e.state = .inSession ∧ x.tag = some e.tag) : (s.resetSlots p)[k]? = some x := by
  rw [State.resetSlots, List.getElem?_map, place, Option.map_some, foldl_resetBy, if_neg]
  rintro ⟨f, mem, held, goes⟩
  obtain ⟨owner, tagged⟩ := (heldBy_iff _ _ _).1 held
  obtain ⟨active, e, mem', state, tagged'⟩ := kept owner
  have same : f = e := List.inj_on_of_nodup_map unique mem mem' (Option.some.inj (tagged.symm.trans tagged'))
  subst same
  refine goes ⟨decide_eq_true ⟨state, ?_⟩, active⟩
  refine List.any_eq_true.2 ⟨x, List.mem_of_getElem? place, ?_⟩
  rw [held, active]
  rfl

end Sys2Proof.Machine
end


section
/-! SUPPORT. What the judgements for joining leave, seen from a port that has no READY entry, and the port reset. -/

namespace Sys2Proof.Machine

/-! ### Joining, seen from the other port (R77) -/

/-- `f` is `e`, or what `e` became when it joined the session. -/
def Entry.JoinedAs (e f : Entry) : Prop :=
  f = e ∨ e.state = .ready ∧ f = { e with state := .inSession, position := f.position, resolved := f.resolved }

theorem Entry.JoinedAs.trans {e f g : Entry} (h : e.JoinedAs f) (h' : f.JoinedAs g) : e.JoinedAs g := by
  rcases h with rfl | ⟨ready, joined⟩
  · exact h'
  · rcases h' with rfl | ⟨ready', -⟩
    · exact .inr ⟨ready, joined⟩
    · rw [joined] at ready'
      cases ready'

/-- `t` is `v` after judgements for joining, none of port `p`'s entries being READY: entries of the other port may have
been taken in, and EMPTY slots armed for them. -/
structure State.Joined (p : Port) (v t : State) : Prop where
  own : t.ctx p = v.ctx p
  other : ∃ queue, t.ctx p.other = { v.ctx p.other with queue := queue }
  pool : t.pool = v.pool
  length : t.slots.length = v.slots.length
  armed : ∀ (k : Nat) (x : Slot), t.slots[k]? = some x → v.slots[k]? = some x ∨ x.owner = some (.port p.other)
  kept : ∀ (k : Nat) (x : Slot), v.slots[k]? = some x → x.state ≠ .empty → t.slots[k]? = some x
  tags : (t.ctx p.other).queue.map Entry.tag = (v.ctx p.other).queue.map Entry.tag
  joins : ((v.ctx p.other).queue.map Entry.tag).Nodup → ∀ (n : Nat) (e : Entry), (v.ctx p.other).queue[n]? = some e →
    ∃ f, (t.ctx p.other).queue[n]? = some f ∧ e.JoinedAs f

theorem State.Joined.of_eq {p : Port} {v t : State} (ctx : ∀ q, t.ctx q = v.ctx q) (pool : t.pool = v.pool)
    (slots : t.slots = v.slots) : v.Joined p t where
  own := ctx p
  other := ⟨_, ctx p.other⟩
  pool := pool
  length := congrArg List.length slots
  armed _ _ place := .inl (slots ▸ place)
  kept _ _ place _ := slots ▸ place
  tags := by rw [ctx]
  joins _ n e place := ⟨e, by rw [ctx, place], .inl rfl⟩

theorem State.Joined.trans {p : Port} {v t u : State} (h : v.Joined p t) (h' : t.Joined p u) : v.Joined p u where
  own := h'.own.trans h.own
  other := by
    obtain ⟨queue, other⟩ := h.other
    obtain ⟨queue', other'⟩ := h'.other
    exact ⟨queue', by rw [other', other]⟩
  pool := h'.pool.trans h.pool
  length := h'.length.trans h.length
  armed k x place := (h'.armed k x place).elim (h.armed k x) .inr
  kept k x place busy := h'.kept k x (h.kept k x place busy) busy
  tags := h'.tags.trans h.tags
  joins unique n e place := by
    obtain ⟨f, place', joined⟩ := h.joins unique n e place
    obtain ⟨g, place'', joined'⟩ := h'.joins (h.tags ▸ unique) n f place'
    exact ⟨g, place'', joined.trans joined'⟩

/-- The entries of a tag, once they have been taken in and armed. -/
def Entry.joinedBy (tag : Byte) (track first : Nat) (e : Entry) : Entry :=
  if e.tag == tag then { e with state := .inSession, position := some track, resolved := some first } else e

/-- An entry that joins, and its slots (R77). -/
theorem takeIn_armEntry {v : State} {q : Port} {tag : Byte} {e : Entry} (track : Nat)
    (live : v.entry? q tag = some e) : (v.takeIn q tag track).armEntry q tag =
      v.withBooks q ((v.ctx q).queue.map (Entry.joinedBy tag track (v.resolve e))) (v.armedSlots q tag e) v.pool := by
  have taken : (v.takeIn q tag track).entry? q tag = some { e with state := .inSession, position := some track } := by
    rw [State.entry?, State.takeIn, State.updEntry, State.updCtx_ctx, List.find?_map]
    have same : (fun e => e.tag == tag) ∘ (fun e : Entry => if e.tag == tag then
        { e with state := .inSession, position := some track } else e) = fun e => e.tag == tag := by
      funext d
      simp only [Function.comp]
      split <;> rfl
    have mine : (e.tag == tag) = true := List.find?_some (p := fun e : Entry => e.tag == tag) live
    rw [same, show ((v.ctx q).queue.find? fun e => e.tag == tag) = some e from live, Option.map_some, if_pos mine]
  have twice (d : Entry) : (if (if d.tag == tag then { d with state := .inSession, position := some track } else d :
      Entry).tag == tag then { (if d.tag == tag then { d with state := .inSession, position := some track } else d :
      Entry) with resolved := some (v.resolve e) } else
      (if d.tag == tag then { d with state := .inSession, position := some track } else d)) =
        Entry.joinedBy tag track (v.resolve e) d := by
    by_cases mine : (d.tag == tag) = true
    · simp only [Entry.joinedBy, mine, if_true]
    · simp only [Entry.joinedBy, mine, Bool.false_eq_true, if_false]
  rw [armEntry_eq taken]
  have queue : (v.ctx q).queue.map (Entry.joinedBy tag track (v.resolve e)) =
      (((v.ctx q).queue.map fun d => if d.tag == tag then
        { d with state := .inSession, position := some track } else d).map fun d =>
        if d.tag == tag then { d with resolved := some (v.resolve e) } else d) := by
    rw [List.map_map]
    exact List.map_congr_left fun d _ => (twice d).symm
  rw [queue]
  cases q <;> rfl

theorem getElem?_armedSlots (v : State) (q : Port) (tag : Byte) (e : Entry) (k : Nat) :
    (v.armedSlots q tag e)[k]? = if k ∈ requestSectors (v.resolve e) e.count ∧ k < v.slots.length then
      some ⟨armedState v.params.lead v.currentSector k, some (.port q), some tag, e.retry, none⟩ else v.slots[k]? :=
  getElem?_foldl_set_each _ _ _ _

/-- A judgement for joining (R77): only a READY entry, and only EMPTY slots. -/
theorem joined_judgeJoin {p : Port} {v : State} (idle : ∀ e ∈ (v.ctx p).queue, e.state ≠ .ready) (q : Port)
    (tag : Byte) : v.Joined p (v.judgeJoin q tag) := by
  have same : v.Joined p v := .of_eq (fun _ => rfl) rfl rfl
  cases open_ : v.session with
  | none =>
    rw [State.judgeJoin, open_]
    exact same
  | some x =>
    cases live : v.entry? q tag with
    | none =>
      rw [State.judgeJoin, open_, live]
      exact same
    | some e =>
      rw [judgeJoin_of_some live open_]
      split
      next may =>
        obtain ⟨ready, -, -, -, -, -, -, -, -, -, empty⟩ := (canJoin_iff open_ q e).1 may
        have held : e ∈ (v.ctx q).queue := List.mem_of_find?_eq_some live
        have mine : e.tag = tag := beq_iff_eq.1 (List.find?_some (p := fun e : Entry => e.tag == tag) live)
        obtain rfl : q = p.other := by
          cases p <;> cases q <;> first | rfl | exact absurd ready (idle e held)
        rw [takeIn_armEntry x.track live]
        have own : (v.withBooks p.other ((v.ctx p.other).queue.map (Entry.joinedBy tag x.track (v.resolve e)))
            (v.armedSlots p.other tag e) v.pool).ctx p = v.ctx p := by cases p <;> rfl
        refine ⟨own, ⟨_, withBooks_ctx ..⟩, rfl, length_foldl_set_each _ _ _, fun k x place => ?_,
          fun k x place busy => ?_, ?_, fun unique n d place => ?_⟩
        · have place : (v.armedSlots p.other tag e)[k]? = some x := place
          rw [getElem?_armedSlots] at place
          split at place
          · cases place
            exact .inr rfl
          · exact .inl place
        · refine (getElem?_armedSlots v p.other tag e k).trans ((if_neg fun sector => busy ?_).trans place)
          obtain ⟨i, low, is⟩ := (mem_requestSectors _ _ _).1 sector.1
          have free := empty i low
          rwa [← is, State.slot, List.getD_eq_getElem?_getD, place, Option.getD_some] at free
        · rw [withBooks_ctx]
          refine (List.map_map ..).trans (List.map_congr_left fun d _ => ?_)
          simp only [Function.comp, Entry.joinedBy]
          split <;> rfl
        · rw [withBooks_ctx]
          refine ⟨_, List.getElem?_map .. |>.trans (congrArg _ place), ?_⟩
          unfold Entry.joinedBy
          split
          next found =>
            have is : d = e := List.inj_on_of_nodup_map unique (List.mem_of_getElem? place) held
              ((beq_iff_eq.1 found).trans mine.symm)
            subst is
            exact .inr ⟨ready, rfl⟩
          · exact .inl rfl
      · exact same

theorem joined_judgeJoins {p : Port} {v : State} (idle : ∀ e ∈ (v.ctx p).queue, e.state ≠ .ready) :
    v.Joined p v.judgeJoins := by
  have step (q : Port) (u : State) (tag : Byte) (h : v.Joined p u) : v.Joined p (u.judgeJoin q tag) :=
    h.trans (joined_judgeJoin (h.own ▸ idle) q tag)
  exact foldl_closed (P := v.Joined p) _ (step .b) (foldl_closed (P := v.Joined p) _ (step .a)
    (.of_eq (fun _ => rfl) rfl rfl))

theorem joined_closeJudgement {p : Port} {v : State} (idle : ∀ e ∈ (v.ctx p).queue, e.state ≠ .ready) :
    v.Joined p v.closeJudgement := by
  have judged := joined_judgeJoins idle
  have closed : v.Joined p v.judgeJoins.closeSession := by
    refine judged.trans (.of_eq (fun q => ?_) ?_ ?_) <;> rw [closeSession_eq]
    cases q <;> rfl
  unfold State.closeJudgement
  dsimp only
  split
  · exact judged
  · exact ite_closed closed judged

end Sys2Proof.Machine
end


section
/-! SUPPORT. The port reset as a whole (R67, R127). -/

namespace Sys2Proof.Machine

theorem freeIfHeldBy_eq (v : State) (p : Port) : v.freeIfHeldBy p = if v.holds p then
    ((({ v with reservation := none } : State).post p.other .reservationFreed)).judgeJoins else v := by
  unfold State.freeIfHeldBy
  by_cases holds : v.holds p = true
  · obtain ⟨r, held, rfl⟩ := (holds_iff v p).1 holds
    rw [if_pos holds, if_pos holds, State.freeReservation, held]
    rfl
  · rw [if_neg holds, if_neg holds]

/-- The port's queue and its context are reset. -/
def State.contextReset (s : State) (p : Port) : State :=
  (s.resetQueue p).updCtx p fun c => c.portReset s.time s.persisting

/-- The reservation is freed, and the other port told. -/
def State.reservationReset (s : State) (p : Port) : State :=
  if (s.contextReset p).holds p then
    ({ s.contextReset p with reservation := none } : State).post p.other .reservationFreed
  else s.contextReset p

/-- The parts of the drive that a port reset leaves. -/
def State.ResetFrame (s u : State) : Prop :=
  u.spindle = s.spindle ∧ u.seq = s.seq ∧ u.medium = s.medium ∧ u.carriage = s.carriage ∧
    (u.pos = s.pos ∨ u.pos = { s.pos with waitingTarget := none, request := none }) ∧
    (u.time = s.time ∧ u.params = s.params ∧ u.supply = s.supply ∧ u.custody = s.custody ∧ u.copy = s.copy ∧
      u.turn = s.turn)

theorem resetFrame_books (s : State) : BookClosed s.ResetFrame where
  session _ _ h := h
  slots _ _ h := h
  pool _ _ h := h
  waiting t h := by
    unfold State.dropWaiting
    split
    · obtain ⟨spindle, seq, medium, carriage, pos, rest⟩ := h
      refine ⟨spindle, seq, medium, carriage, .inr ?_, rest⟩
      rcases pos with pos | pos <;> simp only [State.updPos, pos]
    · exact h
  context t q c _ h := by cases q <;> exact h

theorem portReset_frame (s : State) (p : Port) : s.ResetFrame (s.portReset p) := by
  have B := resetFrame_books s
  have self : s.ResetFrame s := ⟨rfl, rfl, rfl, rfl, .inl rfl, rfl, rfl, rfl, rfl, rfl, rfl⟩
  have queue : s.ResetFrame (s.resetQueue p) := foldl_closed (P := s.ResetFrame) _ (fun u e hu =>
    ite_closed (B.updEntry (B.mapSlots hu _) p e.tag _) (B.removeEntry (B.emptySlots hu p e.tag) p e.tag)) self
  have context : s.ResetFrame (s.contextReset p) := by
    unfold State.contextReset
    cases p <;> exact queue
  have freed : s.ResetFrame ((s.contextReset p).freeIfHeldBy p) := by
    rw [freeIfHeldBy_eq]
    refine ite_closed (P := s.ResetFrame) (B.judgeJoins (B.post ?_ p.other _)) context
    exact context
  exact ite_closed (B.closeJudgement freed) freed

/-- The reset leaves no READY entry in its own queue; what follows are judgements for joining. -/
theorem portReset_joined {s : State} {p : Port}
    (idle : ∀ e ∈ ((s.reservationReset p).ctx p).queue, e.state ≠ .ready) :
    (s.reservationReset p).Joined p (s.portReset p) := by
  have freed : (s.reservationReset p).Joined p ((s.contextReset p).freeIfHeldBy p) := by
    rw [freeIfHeldBy_eq]
    unfold State.reservationReset at idle ⊢
    split
    · rw [if_pos ‹_›] at idle
      exact joined_judgeJoins idle
    · exact .of_eq (fun _ => rfl) rfl rfl
  have closed : (s.reservationReset p).Joined p ((s.contextReset p).freeIfHeldBy p).closeJudgement :=
    freed.trans (joined_closeJudgement (freed.own ▸ idle))
  exact ite_closed closed freed

theorem post_ctx_own (s : State) (p : Port) (b : NoticeBody) : (s.post p.other b).ctx p = s.ctx p := by
  cases p <;> rfl

section
variable {s : State} {p : Port} (unique : ((s.ctx p).queue.map Entry.tag).Nodup)
include unique

theorem contextReset_eq : s.contextReset p = { (s.setCtx p
    (({ s.ctx p with queue := ((s.ctx p).queue.filter (s.staysAtReset p)).map Entry.discarded } :
      PortContext).portReset s.time s.persisting)) with slots := s.resetSlots p, pool := s.resetPool p } := by
  rw [State.contextReset, resetQueue_eq unique]
  cases p <;> rfl

theorem contextReset_holds (q : Port) : (s.contextReset p).holds q = s.holds q := by
  rw [contextReset_eq unique]
  cases p <;> rfl

theorem reservationReset_ctx : (s.reservationReset p).ctx p =
    ({ s.ctx p with queue := ((s.ctx p).queue.filter (s.staysAtReset p)).map Entry.discarded } :
      PortContext).portReset s.time s.persisting := by
  have own : (s.contextReset p).ctx p =
      ({ s.ctx p with queue := ((s.ctx p).queue.filter (s.staysAtReset p)).map Entry.discarded } :
        PortContext).portReset s.time s.persisting := by
    rw [State.contextReset, State.updCtx_ctx, resetQueue_eq unique, withBooks_ctx]
  unfold State.reservationReset
  split
  · rw [post_ctx_own]
    cases p <;> exact own
  · exact own

theorem reservationReset_other : (s.reservationReset p).ctx p.other = if s.holds p then
    (s.ctx p.other).post (({ s.contextReset p with reservation := none } : State).eventNotice .reservationFreed
      s.custody.generation) else s.ctx p.other := by
  unfold State.reservationReset
  rw [contextReset_holds unique]
  split
  · rw [contextReset_eq unique]
    cases p <;> rfl
  · rw [contextReset_eq unique]
    cases p <;> rfl

theorem reservationReset_tables : (s.reservationReset p).slots = s.resetSlots p ∧
    (s.reservationReset p).pool = s.resetPool p ∧
    (s.reservationReset p).reservation = if s.holds p then none else s.reservation := by
  unfold State.reservationReset
  rw [contextReset_holds unique]
  split
  · rw [contextReset_eq unique]
    cases p <;> exact ⟨rfl, rfl, rfl⟩
  · rw [contextReset_eq unique]
    cases p <;> exact ⟨rfl, rfl, rfl⟩

theorem reservationReset_idle : ∀ e ∈ ((s.reservationReset p).ctx p).queue, e.state ≠ .ready := by
  intro e mem ready
  rw [reservationReset_ctx unique] at mem
  have mem : e ∈ ((s.ctx p).queue.filter (s.staysAtReset p)).map Entry.discarded := mem
  obtain ⟨d, held, rfl⟩ := List.mem_map.1 mem
  obtain ⟨state, -⟩ := of_decide_eq_true (List.mem_filter.1 held).2
  exact nomatch state.symm.trans ready

end

theorem finish_books (u : State) : (∀ q, u.finish.ctx q = u.ctx q) ∧ u.finish.slots = u.slots ∧
    u.finish.pool = u.pool ∧ u.finish.reservation = u.reservation := by
  rw [finish_frame]
  exact ⟨fun q => by cases q <;> rfl, rfl, rfl, rfl⟩

/-- Of the spindle, what follows every step touches the idle timer and its count, and the standby stop, alone. -/
theorem finish_spindle (u : State) : ∃ timer count stop, u.finish.spindle =
    { u.spindle with idleTimer := timer, idleCount := count, standbyStop := stop } :=
  ⟨_, _, _, (congrArg State.spindle (finish_frame u) :)⟩

theorem finish_keeps (u : State) : u.finish.time = u.time ∧ u.finish.params = u.params ∧ u.finish.supply = u.supply ∧
    u.finish.custody = u.custody ∧ u.finish.copy = u.copy ∧ u.finish.seq.current = u.seq.current ∧
    u.finish.turn = u.turn := by
  rw [finish_frame]
  exact ⟨rfl, rfl, rfl, rfl, rfl, rfl, rfl⟩

/-- The idle judgement and the gate's law after a state whose idle conditions do not hold (R29, R82). -/
theorem finish_of_busy {u : State} (busy : u.idleConditions = false) :
    u.finish.spindle = { u.spindle with idleCount := 0, idleTimer := none } ∧ u.finish.pos = u.pos ∧
      u.finish.carriage = u.carriage ∧ (u.GateLawful → u.finish.seq = u.seq ∧ u.finish.medium = u.medium) := by
  obtain ⟨spindle, pos, carriage⟩ := finish_leaves u
  have judged : u.judgeIdle = { u with spindle := { u.spindle with idleCount := 0, idleTimer := none } } :=
    (judgeIdle_eq u).trans (if_pos busy)
  rw [judged] at spindle pos carriage
  refine ⟨spindle, pos, carriage, fun lawful => ?_⟩
  by_cases on : u.seq.gate = true
  · obtain ⟨law, served⟩ := lawful on
    have kept : u.finish = { u with spindle := { u.spindle with idleCount := 0, idleTimer := none } } := by
      rw [State.finish, judged, dropGateByLaw_eq]
      exact if_pos ⟨law, served⟩
    rw [kept]
    exact ⟨rfl, rfl⟩
  · rw [finish_of_gate_off (Bool.not_eq_true _ ▸ on), judged]
    exact ⟨rfl, rfl⟩

/-- A standby stop that is taken stays taken. -/
theorem finish_standbyStop {u : State} (taken : u.spindle.standbyStop = true) :
    u.finish.spindle.standbyStop = true := by
  have busy : u.idleConditions = false := by
    rw [← Bool.not_eq_true, idleConditions_iff]
    rintro ⟨-, -, free, -⟩
    exact nomatch free.symm.trans taken
  rw [(finish_of_busy busy).1]
  exact taken

/-- With the gate off, the idle judgement leaves the sequencer (R29, R82). -/
theorem finish_seq_of_gate_off {u : State} (off : u.seq.gate = false) : u.finish.seq = u.seq := by
  rw [finish_of_gate_off off, (judgeIdle_leaves u).1]

theorem gateLawful_of_frame {s u : State} (spindle : u.spindle = s.spindle) (seq : u.seq = s.seq)
    (pos : u.pos.state = s.pos.state ∧ u.pos.confidence = s.pos.confidence) (supply : u.supply = s.supply)
    (custody : u.custody = s.custody) (h : s.GateLawful) : u.GateLawful := by
  obtain ⟨state, confidence⟩ := pos
  have law : u.gateLaw = s.gateLaw := by
    rw [State.gateLaw, State.gateLaw, State.supplyHigh, State.supplyHigh, spindle, supply, custody, state, confidence]
  have served : u.writeServed = s.writeServed := by rw [State.writeServed, State.writeServed, seq]
  rw [State.GateLawful, law, served, seq]
  exact h

/-- The judgements for joining leave the reservation. -/
theorem portReset_reservation (s : State) (p : Port) :
    (s.portReset p).reservation = (s.reservationReset p).reservation := by
  have B : BookClosed fun t => t.reservation = (s.reservationReset p).reservation :=
    { session := fun _ _ h => h
      slots := fun _ _ h => h
      pool := fun _ _ h => h
      waiting := fun _ h => ite_closed (P := fun t => t.reservation = (s.reservationReset p).reservation) h h
      context := fun t q c _ h => by cases q <;> exact h }
  have freed : ((s.contextReset p).freeIfHeldBy p).reservation = (s.reservationReset p).reservation := by
    rw [freeIfHeldBy_eq]
    unfold State.reservationReset at B ⊢
    split
    · rw [if_pos ‹_›] at B
      exact B.judgeJoins rfl
    · rfl
  exact ite_closed (P := fun t => t.reservation = (s.reservationReset p).reservation) (B.closeJudgement freed) freed

/-! ### The three parts of the statement -/

theorem resetMaint_eq (c : PortContext) : c.resetMaint = match c.maint with
    | none => none
    | some m => if m.outcome ≠ none then none
        else if c.link.state = .dataIn ∧ ∃ tag, c.link.work = .mediaRecord tag then none
        else some { m with discard := true } := by
  unfold PortContext.resetMaint
  cases c.maint with
  | none => rfl
  | some m =>
    dsimp only
    refine if_congr Option.isSome_iff_ne_none rfl ?_
    split
    next tag state work => exact (if_pos ⟨state, tag, work⟩).symm
    next other => exact (if_neg fun ⟨state, tag, work⟩ => other tag state work).symm

theorem portReset_link (c : PortContext) (now : Time) : c.resetLink now = match c.linkPresent, c.link.strobe with
    | true, some b => ⟨.receivingBlock, 1, 8, some ⟨now, 100000⟩, [b], [], [], .plain, none⟩
    | _, _ => ⟨.idle, 0, 0, none, [], [], [], .plain, none⟩ := by
  unfold PortContext.resetLink Link.toIdle
  cases c.linkPresent <;> cases c.link.strobe <;> rfl

theorem persisting_eq (s : State) : s.persisting =
    ⟨false, s.faultOutstanding, decide (s.pos.confidence = .uncertain), s.recalOutstanding,
      !decide (s.supply.state = .high), decide (s.custody.state = .jammed)⟩ := by
  simp only [State.persisting, State.supplyHigh, beq_eq_decide]

theorem post_queue (c : PortContext) (n : Notice) : (c.post n).queue = c.queue := by
  unfold PortContext.post
  split_ifs <;> rfl

theorem staysAtReset_iff (s : State) (p : Port) (e : Entry) : s.staysAtReset p e = true ↔
    e.state = .inSession ∧ s.hasActiveSlot p e.tag = true := decide_eq_true_iff

section
variable {s : State} {p : Port} (unique : ((s.ctx p).queue.map Entry.tag).Nodup)
include unique

theorem portReset_ctx : (s.portReset p).finish.ctx p =
    ({ s.ctx p with queue := ((s.ctx p).queue.filter (s.staysAtReset p)).map Entry.discarded } :
      PortContext).portReset s.time s.persisting := by
  rw [(finish_books _).1, (portReset_joined (reservationReset_idle unique)).own, reservationReset_ctx unique]

theorem portReset_station : ∃ queue n, (s.portReset p).finish.ctx p.other =
    { (if s.holds p then (s.ctx p.other).post n else s.ctx p.other) with queue := queue } := by
  obtain ⟨queue, other⟩ := (portReset_joined (reservationReset_idle unique)).other
  refine ⟨queue, ({ s.contextReset p with reservation := none } : State).eventNotice .reservationFreed
    s.custody.generation, ?_⟩
  rw [(finish_books _).1, other, reservationReset_other unique]

/-- The port's own context (R127), and which of its entries stay (R67). -/
theorem portReset_entries :
    (∀ e ∈ ((s.portReset p).finish.ctx p).queue,
      e.discard = true ∧ e.state = .inSession ∧ s.hasActiveSlot p e.tag = true) ∧
    (∀ e ∈ (s.ctx p).queue, (e.state = .inSession ∧ s.hasActiveSlot p e.tag = true ↔
      ∃ f ∈ ((s.portReset p).finish.ctx p).queue, f.tag = e.tag)) := by
  rw [portReset_ctx unique]
  constructor
  · intro e mem
    obtain ⟨d, held, rfl⟩ := List.mem_map.1 mem
    exact ⟨rfl, (staysAtReset_iff s p d).1 (List.mem_filter.1 held).2⟩
  · intro e mem
    rw [← staysAtReset_iff]
    constructor
    · exact fun stays => ⟨e.discarded, List.mem_map_of_mem (List.mem_filter.2 ⟨mem, stays⟩), rfl⟩
    · rintro ⟨f, mem', same⟩
      obtain ⟨d, held, rfl⟩ := List.mem_map.1 mem'
      obtain ⟨mem'', stays⟩ := List.mem_filter.1 held
      rwa [← List.inj_on_of_nodup_map unique mem'' mem same]

/-- Slots and buffers (R67), and the other port's entries (R77). -/
theorem portReset_tables :
    let t := (s.portReset p).finish
    let o := s.ctx p
    let stays (e : Entry) : Bool := decide (e.state = .inSession ∧ s.hasActiveSlot p e.tag = true)
    (t.ctx p).queue = (o.queue.filter stays).map (fun e => { e with discard := true }) ∧
    t.pool.length = s.pool.length ∧
    (∀ (i : Nat) (h : Option Port), s.pool[i]? = some h →
      ((∃ e ∈ o.queue, stays e = false ∧ i ∈ e.buffers) → t.pool[i]? = some none) ∧
      ((∀ e ∈ o.queue, stays e = false → i ∉ e.buffers) → t.pool[i]? = some h)) ∧
    t.slots.length = s.slots.length ∧
    (∀ (k : Nat) (x : Slot), t.slots[k]? = some x → ∀ e ∈ o.queue, x.owner = some (.port p) → x.tag = some e.tag →
      x.state = .active ∧ s.slots[k]? = some x) ∧
    (∀ (k : Nat) (x : Slot), s.slots[k]? = some x → x.state ≠ .empty → (x.owner = some (.port p) → x.state = .active ∧
        ∃ e ∈ o.queue, e.state = .inSession ∧ x.tag = some e.tag) → t.slots[k]? = some x) ∧
    (((s.ctx p.other).queue.map Entry.tag).Nodup →
      (t.ctx p.other).queue.length = (s.ctx p.other).queue.length ∧
      ∀ (n : Nat) (e : Entry), (s.ctx p.other).queue[n]? = some e → ∃ f, (t.ctx p.other).queue[n]? = some f ∧
        (f = e ∨ e.state = .ready ∧
          f = { e with state := .inSession, position := f.position, resolved := f.resolved })) := by
  intro t o stays
  have joined := portReset_joined (reservationReset_idle unique)
  obtain ⟨ctx, slots, pool, -⟩ := finish_books (s.portReset p)
  obtain ⟨slots', pool', -⟩ := reservationReset_tables unique
  have poolIs : t.pool = s.resetPool p := pool.trans (joined.pool.trans pool')
  have slotsAre : t.slots = (s.portReset p).slots := slots
  have otherQueue : ((s.reservationReset p).ctx p.other).queue = (s.ctx p.other).queue := by
    rw [reservationReset_other unique]
    split
    · exact post_queue _ _
    · rfl
  have armed := joined.armed
  have kept := joined.kept
  have length := joined.length
  have tags := joined.tags
  have joins := joined.joins
  rw [slots'] at armed kept length
  rw [otherQueue, ← ctx] at tags joins
  refine ⟨?_, ?_, fun i h place => ?_, ?_, fun k x place e mem owner tagged => ?_, fun k x place busy mine => ?_,
    fun unique' => ⟨?_, fun n e place => joins unique' n e place⟩⟩
  · exact congrArg PortContext.queue (portReset_ctx unique)
  · rw [poolIs, length_resetPool]
  · rw [poolIs]
    exact getElem?_resetPool place
  · rw [slotsAre, length, length_resetSlots]
  · rw [slotsAre] at place
    rcases armed k x place with held | other
    · exact resetSlots_held held mem owner tagged
    · exact absurd (owner.symm.trans other) (by cases p <;> nofun)
  · rw [slotsAre]
    exact kept k x (resetSlots_kept unique place mine) busy
  · rw [← List.length_map (f := Entry.tag), tags, List.length_map]

end

/-- What the reset, and the judgements that follow every step, leave of the spindle, the sequencer and the heads. -/
theorem portReset_drive (s : State) (p : Port) :
    let t := (s.portReset p).finish
    t.spindle.goodCount = s.spindle.goodCount ∧ t.spindle.badCount = s.spindle.badCount ∧
    t.spindle.firstIndexTimer = s.spindle.firstIndexTimer ∧ t.spindle.lockTimer = s.spindle.lockTimer ∧
    t.spindle.absenceTimer = s.spindle.absenceTimer ∧ t.spindle.regainTimer = s.spindle.regainTimer ∧
    t.spindle.quietTimer = s.spindle.quietTimer ∧
    (s.spindle.standbyStop = true → t.spindle.standbyStop = true) ∧
    (s.seq.gate = false → t.seq = s.seq) ∧
    ∃ u : State, t = u.finish ∧ u.spindle = s.spindle ∧ u.seq = s.seq ∧ u.medium = s.medium ∧
      u.carriage = s.carriage ∧ (u.pos = s.pos ∨ u.pos = { s.pos with waitingTarget := none, request := none }) ∧
      (u.idleConditions = false → t.spindle.standbyStop = s.spindle.standbyStop ∧ t.pos = u.pos ∧
        t.carriage = s.carriage ∧ (s.GateLawful → t.seq = s.seq ∧ t.medium = s.medium)) := by
  intro t
  obtain ⟨spindle, seq, medium, carriage, pos, -, -, supply, custody, -, -⟩ := portReset_frame s p
  obtain ⟨timer, count, stop, frame⟩ := finish_spindle (s.portReset p)
  have kept : t.spindle = { s.spindle with idleTimer := timer, idleCount := count, standbyStop := stop } :=
    spindle ▸ frame
  refine ⟨by rw [kept], by rw [kept], by rw [kept], by rw [kept], by rw [kept], by rw [kept], by rw [kept],
    fun taken => finish_standbyStop (spindle ▸ taken), fun off => (finish_seq_of_gate_off (seq ▸ off)).trans seq,
    s.portReset p, rfl, spindle, seq, medium, carriage, pos, fun busy => ?_⟩
  obtain ⟨idle, heads, place, law⟩ := finish_of_busy busy
  have same : (s.portReset p).pos.state = s.pos.state ∧ (s.portReset p).pos.confidence = s.pos.confidence := by
    rcases pos with pos | pos <;> rw [pos] <;> exact ⟨rfl, rfl⟩
  refine ⟨?_, heads, place.trans carriage, fun lawful => ?_⟩
  · rw [idle, ← spindle]
  · obtain ⟨seq', medium'⟩ := law (gateLawful_of_frame spindle seq same supply custody lawful)
    exact ⟨seq'.trans seq, medium'.trans medium⟩

/-- Settles O45. -/
theorem portResetClearsThePort : Obligations.PortResetClearsThePort := by
  refine ⟨fun s p unique => ⟨(s.portReset p).finish, rfl, ?_⟩, fun s t p unique done => ?_, fun s t p done => ?_⟩
  · intro c o
    have own : c = _ := portReset_ctx unique
    obtain ⟨discarded, stay⟩ := portReset_entries unique
    obtain ⟨queue, n, other⟩ := portReset_station unique
    obtain ⟨spindle, seq, -, -, -, time, params, supply, custody, copy, turn⟩ := portReset_frame s p
    obtain ⟨timer, count, stop, kept⟩ := finish_spindle (s.portReset p)
    obtain ⟨time', params', supply', custody', copy', current', turn'⟩ := finish_keeps (s.portReset p)
    have reservation : (s.portReset p).finish.reservation = if s.holds p then none else s.reservation := by
      rw [(finish_books _).2.2.2, portReset_reservation, (reservationReset_tables unique).2.2]
    have aside : (s.ctx p.other).Aside (if s.holds p then (s.ctx p.other).post n else s.ctx p.other) := by
      split
      · exact PortContext.aside_post _ _
      · exact .refl _
    obtain ⟨-, acknowledged, lock, -, -, link⟩ := aside.fields
    rw [spindle] at kept
    rw [own, other, reservation, kept]
    refine ⟨⟨rfl, rfl, rfl, rfl, rfl, rfl, rfl⟩, portReset_link _ _, ?_, own ▸ discarded, own ▸ stay, ?_,
      fun holds => if_pos holds, fun away => if_neg (Bool.not_eq_true _ ▸ away), link, lock, acknowledged,
      fun away => ?_, time'.trans time, params'.trans params, supply'.trans supply, custody'.trans custody,
      copy'.trans copy, rfl, rfl, rfl, rfl, rfl, rfl, rfl, rfl, rfl,
      current'.trans (congrArg Sequencer.current seq), turn'.trans turn⟩
    · exact congrArg (fun d => if (s.ctx p).linkPresent = true then d else Conditions.clear) (persisting_eq s)
    · exact resetMaint_eq _
    · rw [away]
      rfl
  · cases done
    exact portReset_tables unique
  · cases done
    exact portReset_drive s p

end Sys2Proof.Machine
end
